-- ==== Sys2Proof/Word.lean ====
section
/-! DEFINITION. The engine's unsigned values (00_scope.md R12): bytes, the two register widths the
spec uses, and finite byte lists. -/

namespace Sys2Proof

/-- A byte, 0 to 255 (R12). -/
abbrev Byte := BitVec 8

/-- An unsigned integer of 16 bits (R12). -/
abbrev U16 := BitVec 16

/-- An unsigned integer of 32 bits (R12). -/
abbrev U32 := BitVec 32

/-- A finite list of bytes (R12). -/
abbrev Bytes := List Byte

end Sys2Proof
end

