-- ==== Sys2Proof/Config.lean ====
section
/-! DEFINITION. The implementation parameters (00_scope.md R9, R10), their defaults, and the constants
without a body that stand for the values the spec leaves open. -/

namespace Sys2Proof

/-- The six response shapes (41_message_protocol.md R172, 30_encoding.md R100). -/
inductive Shape where
  | protocolVersion
  | hardwareVersion
  | selectResult
  | mtu
  | crcResult
  | empty
  deriving DecidableEq, Repr

/-- The symbolic result-code names: the nine of 30_encoding.md R102 and R103, and any further one, since the
source's list goes on (R102, 91_not_in_source.md N6). That a further name is a string is the model's choice
(DESIGN CHOICE, log entry 25, safe). `Unknown` is the absence of a name. -/
inductive ResultName where
  | success
  | opCodeNotSupported
  | invalidParameter
  | insufficientResources
  | invalidObject
  | unsupportedType
  | operationNotPermitted
  | operationFailed
  | extendedError
  | other (name : String)
  deriving DecidableEq, Repr

/-- Parameter `SHAPE_LEN` (R9): one body length per shape. -/
structure ShapeLens where
  protocolVersion : Nat
  hardwareVersion : Nat
  selectResult : Nat
  mtu : Nat
  crcResult : Nat
  empty : Nat
  deriving DecidableEq, Repr

/-- The body lengths of 41_message_protocol.md R173, which are also the lengths of the layouts of R100. -/
def ShapeLens.layout : ShapeLens where
  protocolVersion := 1
  hardwareVersion := 20
  selectResult := 12
  mtu := 2
  crcResult := 8
  empty := 0

/-- Parameter `CRC32` (R9) as plain data: the algorithm of 43_crc_accumulator.md R233, or any other one
that obeys the laws of R231, named by a number and otherwise unknown (log entry 2). -/
inductive CrcAlgorithm where
  | ieee
  | other (n : Nat)
  deriving DecidableEq, Repr

/-- The configuration record (R9), one field per parameter, in the table's order. -/
structure Config where
  endByte : Byte
  escByte : Byte
  subEnd : Byte
  subEsc : Byte
  opProtocolVersion : Byte
  opCreate : Byte
  opSetPrn : Byte
  opGetCrc : Byte
  opExecute : Byte
  opSelect : Byte
  opGetMtu : Byte
  opWrite : Byte
  opHwVersion : Byte
  opResponse : Byte
  resSuccess : Byte
  resNames : List (Byte × ResultName)
  kindCommand : Byte
  kindData : Byte
  supportedVersion : Byte
  padByte : Byte
  padAlign : Nat
  prnDisable : U16
  crc : CrcAlgorithm
  shapeLen : ShapeLens
  strictLength : Bool
  /-- `none` is the default, infinity. -/
  rxCap : Option Nat
  /-- Seconds; the source gives "tens of seconds" and no number (R321), and no rule reads it. -/
  readTimeout : Option Nat
  deriving DecidableEq, Repr

namespace Config

/-- The request opcodes, which R9 wants pairwise distinct. -/
def requestOpcodes (c : Config) : List Byte :=
  [c.opProtocolVersion, c.opCreate, c.opSetPrn, c.opGetCrc, c.opExecute, c.opSelect, c.opGetMtu,
   c.opWrite, c.opHwVersion]

/-- The constraints of R10 on the four framing bytes. -/
abbrev framingOk (c : Config) : Prop :=
  c.endByte ≠ c.escByte ∧ c.subEnd ≠ c.subEsc ∧ c.subEnd ≠ c.endByte ∧ c.subEsc ≠ c.endByte

/-- Partial map `RES_NAME` (R9); `none` is the name `Unknown` of R178. -/
def resName (c : Config) (b : Byte) : Option ResultName := c.resNames.lookup b

/-- `RX_CAP` is at least 3 if finite (R9). -/
abbrev rxCapOk (c : Config) : Prop := ∀ n ∈ c.rxCap, 3 ≤ n

/-- Every constraint of the tables of R9 and R10. -/
abbrev Ok (c : Config) : Prop :=
  c.framingOk ∧ c.requestOpcodes.Nodup ∧ c.resName c.resSuccess = some .success ∧
    (∀ p ∈ c.resNames, p.2 ≠ .success → p.1 ≠ c.resSuccess) ∧ c.kindCommand ≠ c.kindData ∧
    0 < c.padAlign ∧ c.rxCapOk

/-- Parameter `SHAPE_LEN` as a map. -/
def shapeLenOf (c : Config) : Shape → Nat
  | .protocolVersion => c.shapeLen.protocolVersion
  | .hardwareVersion => c.shapeLen.hardwareVersion
  | .selectResult => c.shapeLen.selectResult
  | .mtu => c.shapeLen.mtu
  | .crcResult => c.shapeLen.crcResult
  | .empty => c.shapeLen.empty

/-- Default result-code table (30_encoding.md R103). -/
def defaultResNames : List (Byte × ResultName) :=
  [(0x01, .success), (0x02, .opCodeNotSupported), (0x03, .invalidParameter),
   (0x04, .insufficientResources), (0x05, .invalidObject), (0x07, .unsupportedType),
   (0x08, .operationNotPermitted), (0x0A, .operationFailed), (0x0B, .extendedError)]

/-- The defaults of R9 (DESIGN CHOICE, log entry 1, unsafe: the spec marks the wire numbers as not
evidenced by the source). -/
def default : Config where
  endByte := 0xC0
  escByte := 0xDB
  subEnd := 0xDC
  subEsc := 0xDD
  opProtocolVersion := 0x00
  opCreate := 0x01
  opSetPrn := 0x02
  opGetCrc := 0x03
  opExecute := 0x04
  opSelect := 0x06
  opGetMtu := 0x07
  opWrite := 0x08
  opHwVersion := 0x0A
  opResponse := 0x60
  resSuccess := 0x01
  resNames := defaultResNames
  kindCommand := 0x01
  kindData := 0x02
  supportedVersion := 1
  padByte := 0xFF
  padAlign := 4
  prnDisable := 0
  crc := .ieee
  shapeLen := ShapeLens.layout
  strictLength := false
  rxCap := none
  readTimeout := none

/-- The HDLC instance of 40_framing_codec.md R145: the default with four other framing bytes. -/
def hdlc : Config :=
  { default with endByte := 0x7E, escByte := 0x7D, subEnd := 0x5E, subEsc := 0x5D }

/-! ## Values the spec leaves open

Constants without a body: nothing can be proved of their values. -/

/-- One byte-serial step of a CRC other than the default one (R231: only the laws are known). -/
opaque otherCrcStep : Nat → U32 → Byte → U32

/-- The byte a response parser finds at an index that its body does not have. It is read only if
`SHAPE_LEN` is instantiated below the layout of R100 (DESIGN CHOICE, log entry 8, safe). -/
opaque absentByte : Bytes → Nat → Byte

/-- What a u32 length register holds after latching a length of 2^32 or more (R251 raises there and
states no value; DESIGN CHOICE, log entry 9, safe). -/
opaque unfitLength : Nat → U32

/-- The padded length when `PAD_ALIGN` is 0, which R9 forbids (DESIGN CHOICE, log entry 10, safe). -/
opaque padZeroAlign : Nat → Nat

end Config

end Sys2Proof
end

