-- ==== Sys2Proof/Syntax.lean ====
section
/-! DEFINITION. The abstract syntax: object kinds, requests, the 24 items of `spec/opcode_table.json` as
one inductive, and the error kinds of 60_exceptions.md R301. -/

namespace Sys2Proof

/-- `ObjectKind` (00_scope.md R14): the device's two write targets. -/
inductive ObjectKind where
  | command
  | data
  deriving DecidableEq, Repr

/-- A Request (41_message_protocol.md R160): a tagged value, nine variants. -/
inductive Request where
  | getProtocolVersion
  | getHardwareVersion
  | selectObject (kind : ObjectKind)
  | createObject (kind : ObjectKind) (size : U32)
  | setReceiptNotification (everyN : U16)
  | getMtu
  | writeChunk (data : Bytes)
  | getCrc
  | execute
  deriving DecidableEq, Repr

/-- One constructor per row of `spec/opcode_table.json` (30_encoding.md R110). -/
inductive Instr where
  /-- R161, format REQ0 -/
  | getProtocolVersion
  /-- R162, format REQ0 -/
  | getHardwareVersion
  /-- R163, format REQ_K -/
  | selectObject (kind : ObjectKind)
  /-- R164, format REQ_KS -/
  | createObject (kind : ObjectKind) (size : U32)
  /-- R165, format REQ_N -/
  | setReceiptNotification (everyN : U16)
  /-- R166, format REQ0 -/
  | getMtu
  /-- R167, format REQ_D -/
  | writeChunk (data : Bytes)
  /-- R168, format REQ0 -/
  | getCrc
  /-- R169, format REQ0 -/
  | execute
  /-- R181: a Success response to GetProtocolVersion -/
  | rspGetProtocolVersion (version : Byte)
  /-- R182: a Success response to GetHardwareVersion -/
  | rspGetHardwareVersion (part variant romSize ramSize romPageSize : U32)
  /-- R183: a Success response to SelectObject -/
  | rspSelectObject (maxSize offset crc : U32)
  /-- R186: an acknowledgement of CreateObject -/
  | rspCreateObject
  /-- R186: an acknowledgement of SetReceiptNotification -/
  | rspSetReceiptNotification
  /-- R184: a Success response to GetMtu -/
  | rspGetMtu (mtu : U16)
  /-- R186: an acknowledgement of WriteChunk, never awaited by the sequencer (R167) -/
  | rspWriteChunk
  /-- R185: a Success response to GetCrc -/
  | rspGetCrc (offset crc : U32)
  /-- R186: an acknowledgement of Execute -/
  | rspExecute
  /-- R178: a response to the request with opcode `echo` whose result code `raw` is not Success -/
  | rspRejected (echo raw : Byte)
  /-- R137: the terminator -/
  | frameEnd
  /-- R140: the pair that stands for the byte `END` -/
  | frameEscEnd
  /-- R140: the pair that stands for the byte `ESC` -/
  | frameEscEsc
  /-- R139: a byte that stands for itself -/
  | frameLiteral (b : Byte)
  /-- R140: `ESC` followed by a byte that is no substitute -/
  | frameBadEscape (x : Byte)
  deriving DecidableEq, Repr

/-- The opcode-table row of a request. -/
def Request.toInstr : Request → Instr
  | .getProtocolVersion => .getProtocolVersion
  | .getHardwareVersion => .getHardwareVersion
  | .selectObject k => .selectObject k
  | .createObject k n => .createObject k n
  | .setReceiptNotification n => .setReceiptNotification n
  | .getMtu => .getMtu
  | .writeChunk d => .writeChunk d
  | .getCrc => .getCrc
  | .execute => .execute

/-- The failing stream action of a TransportError (R303). -/
inductive TransportCause where
  | write
  | flush
  | read
  deriving DecidableEq, Repr

/-- Sub-causes of FramingError (R305). -/
inductive FramingCause where
  | badEscape (b : Byte)
  | streamClosed
  | overflow
  deriving DecidableEq, Repr

/-- Sub-causes of ProtocolDesyncError (R306). -/
inductive DesyncCause where
  | badResponseOpcode (got : Byte)
  | echoMismatch (expected got : Byte)
  deriving DecidableEq, Repr

/-- Sub-causes of MalformedResponseError (R175, R179, R180). -/
inductive MalformedCause where
  | shortEnvelope (len : Nat)
  | shortBody (shape : Shape) (len : Nat)
  | longBody (shape : Shape) (len : Nat)
  deriving DecidableEq, Repr

/-- Sub-causes of ModelFault (R251, R270, R278). -/
inductive ModelFaultCause where
  | lengthTooLarge
  | mtuTooSmall (mtu : U16)
  | maxSizeZero
  deriving DecidableEq, Repr

/-- The error kinds of R301 with the information each records. `noError` is the table's code 0. -/
inductive ErrKind where
  | noError
  /-- Never raised by the engine (R302). -/
  | deviceDiscovery
  | transport (cause : TransportCause)
  | timeout
  | framing (cause : FramingCause)
  | protocolDesync (cause : DesyncCause)
  /-- `name` is `none` for a code outside `RES_NAME` (`Unknown`, R178). -/
  | deviceRejection (raw : Byte) (name : Option ResultName)
  | integrity (expected reported : U32)
  | versionMismatch (reported : Byte)
  /-- Never raised by the engine (R302). -/
  | packageFormat
  | malformedResponse (cause : MalformedCause)
  | modelFault (cause : ModelFaultCause)
  deriving DecidableEq, Repr

/-- The numeric codes of R301. -/
def ErrKind.code : ErrKind → Nat
  | .noError => 0
  | .deviceDiscovery => 1
  | .transport _ => 2
  | .timeout => 3
  | .framing _ => 4
  | .protocolDesync _ => 5
  | .deviceRejection _ _ => 6
  | .integrity _ _ => 7
  | .versionMismatch _ => 8
  | .packageFormat => 9
  | .malformedResponse _ => 10
  | .modelFault _ => 11

end Sys2Proof
end

