-- ==== Sys2Proof/WellFormed.lean ====
section
/-! DEFINITION. Which terms of `Instr` are items of the wire under a configuration: the `constraint`
fields of `spec/opcode_table.json`. Operand widths are in the types. -/

namespace Sys2Proof

/-- The three rows with a constraint: a literal is neither `END` nor `ESC` (30_encoding.md R91), the byte
of a bad escape is neither substitute (R91, R104), a rejection's code is not `RES_SUCCESS` and it answers
some request of the table (R178). -/
def Instr.wf (c : Config) : Instr → Bool
  | .frameLiteral b => decide (b ≠ c.endByte) && decide (b ≠ c.escByte)
  | .frameBadEscape x => decide (x ≠ c.subEnd) && decide (x ≠ c.subEsc)
  | .rspRejected echo raw => decide (echo ∈ c.requestOpcodes) && decide (raw ≠ c.resSuccess)
  | .getProtocolVersion => true
  | .getHardwareVersion => true
  | .selectObject _ => true
  | .createObject _ _ => true
  | .setReceiptNotification _ => true
  | .getMtu => true
  | .writeChunk _ => true
  | .getCrc => true
  | .execute => true
  | .rspGetProtocolVersion _ => true
  | .rspGetHardwareVersion _ _ _ _ _ => true
  | .rspSelectObject _ _ _ => true
  | .rspCreateObject => true
  | .rspSetReceiptNotification => true
  | .rspGetMtu _ => true
  | .rspWriteChunk => true
  | .rspGetCrc _ _ => true
  | .rspExecute => true
  | .frameEnd => true
  | .frameEscEnd => true
  | .frameEscEsc => true

end Sys2Proof
end

