-- ==== Sys2Proof/Decode.lean ====
section
/-! DEFINITION. The wire formats of 30_encoding.md: byte order, decoders for the three nested formats
(request message, response envelope, frame symbol), each total and rejecting by name, and after them
the encoder, the frame function of unit U1 and the reading of the opcode table's numbers. -/

namespace Sys2Proof

/-! ## Byte order (00_scope.md R13, 20_memory.md R64, R65) -/

/-- `le16` (R13). -/
def le16 (v : U16) : Bytes := [v.extractLsb' 0 8, v.extractLsb' 8 8]

/-- `le32` (R13). -/
def le32 (v : U32) : Bytes :=
  [v.extractLsb' 0 8, v.extractLsb' 8 8, v.extractLsb' 16 8, v.extractLsb' 24 8]

/-- `B[i]` (R12); past the end, the free value of log entry 8. -/
def byteAt (B : Bytes) (i : Nat) : Byte := B[i]?.getD (Config.absentByte B i)

/-- `rd_le16` (R13). -/
def rdLe16 (B : Bytes) (i : Nat) : U16 :=
  BitVec.ofNat 16 ((byteAt B i).toNat + 256 * (byteAt B (i + 1)).toNat)

/-- `rd_le32` (R13). -/
def rdLe32 (B : Bytes) (i : Nat) : U32 :=
  BitVec.ofNat 32 ((byteAt B i).toNat + 2 ^ 8 * (byteAt B (i + 1)).toNat +
    2 ^ 16 * (byteAt B (i + 2)).toNat + 2 ^ 24 * (byteAt B (i + 3)).toNat)

/-! ## Request facts (41_message_protocol.md R160 to R172) -/

/-- `OPCODE(req)` (R160, R96). -/
def opcodeOf (c : Config) : Request → Byte
  | .getProtocolVersion => c.opProtocolVersion
  | .getHardwareVersion => c.opHwVersion
  | .selectObject _ => c.opSelect
  | .createObject _ _ => c.opCreate
  | .setReceiptNotification _ => c.opSetPrn
  | .getMtu => c.opGetMtu
  | .writeChunk _ => c.opWrite
  | .getCrc => c.opGetCrc
  | .execute => c.opExecute

/-- `SHAPE(req)` (R172). -/
def shapeFor : Request → Shape
  | .getProtocolVersion => .protocolVersion
  | .getHardwareVersion => .hardwareVersion
  | .selectObject _ => .selectResult
  | .createObject _ _ => .empty
  | .setReceiptNotification _ => .empty
  | .getMtu => .mtu
  | .writeChunk _ => .empty
  | .getCrc => .crcResult
  | .execute => .empty

/-- `KINDBYTE` (R97, R163). -/
def kindByte (c : Config) : ObjectKind → Byte
  | .command => c.kindCommand
  | .data => c.kindData

/-- The inverse of `kindByte`; `none` for a reserved kind byte (R106). -/
def decodeKind (c : Config) (b : Byte) : Option ObjectKind :=
  if b = c.kindCommand then some .command else if b = c.kindData then some .data else none

/-- The shape of the answer to the request with opcode `op`, for a reader who knows the opcode only (R99);
`Empty` for an opcode outside the table. -/
def shapeOfOpcode (c : Config) (op : Byte) : Shape :=
  if op = c.opProtocolVersion then .protocolVersion
  else if op = c.opHwVersion then .hardwareVersion
  else if op = c.opSelect then .selectResult
  else if op = c.opGetMtu then .mtu
  else if op = c.opGetCrc then .crcResult
  else .empty

/-! ## Decoders -/

/-- Why bytes are no item of their format. -/
inductive DecodeError where
  /-- No byte at all. -/
  | emptyInput
  /-- Byte 0 of a message is no opcode of R96. -/
  | unknownOpcode (op : Byte)
  /-- The message has not the length of its layout (R94). -/
  | badLength (op : Byte) (len : Nat)
  /-- The kind byte is reserved (R106). -/
  | reservedKind (b : Byte)
  /-- The bytes end after an `ESC` (R92: it is a prefix). -/
  | truncatedEscape
  /-- The payload is refused by the envelope checks of R171, with the error they raise. -/
  | envelope (kind : ErrKind)
  deriving DecidableEq, Repr

/-- A message of format REQ0: nothing may follow the opcode (R94). -/
def decodeReq0 (i : Instr) (op : Byte) (rest : Bytes) : Except DecodeError Instr :=
  if rest = [] then .ok i else .error (.badLength op (rest.length + 1))

/-- Decode a kind byte or name it as reserved (R106). -/
def decodeWithKind (c : Config) (k : Byte) (mk : ObjectKind → Instr) : Except DecodeError Instr :=
  match decodeKind c k with
  | some kind => .ok (mk kind)
  | none => .error (.reservedKind k)

/-- Format REQ_K (R94). -/
def decodeSelect (c : Config) (op : Byte) : Bytes → Except DecodeError Instr
  | [k] => decodeWithKind c k .selectObject
  | rest => .error (.badLength op (rest.length + 1))

/-- Format REQ_KS (R94, R97). -/
def decodeCreate (c : Config) (op : Byte) : Bytes → Except DecodeError Instr
  | [k, s0, s1, s2, s3] =>
      decodeWithKind c k fun kind => .createObject kind (rdLe32 [s0, s1, s2, s3] 0)
  | rest => .error (.badLength op (rest.length + 1))

/-- Format REQ_N (R94, R97). -/
def decodeSetPrn (op : Byte) : Bytes → Except DecodeError Instr
  | [n0, n1] => .ok (.setReceiptNotification (rdLe16 [n0, n1] 0))
  | rest => .error (.badLength op (rest.length + 1))

/-- The request a message stands for (R94, R96, R97). The engine contains no such decoder (R170); it is
the reading of the table's request rows. -/
def decodeRequest (c : Config) : Bytes → Except DecodeError Instr
  | [] => .error .emptyInput
  | op :: rest =>
    if op = c.opProtocolVersion then decodeReq0 .getProtocolVersion op rest
    else if op = c.opCreate then decodeCreate c op rest
    else if op = c.opSetPrn then decodeSetPrn op rest
    else if op = c.opGetCrc then decodeReq0 .getCrc op rest
    else if op = c.opExecute then decodeReq0 .execute op rest
    else if op = c.opSelect then decodeSelect c op rest
    else if op = c.opGetMtu then decodeReq0 .getMtu op rest
    else if op = c.opWrite then .ok (.writeChunk rest)
    else if op = c.opHwVersion then decodeReq0 .getHardwareVersion op rest
    else .error (.unknownOpcode op)

/-- Which of the four acknowledgement rows an `Empty` response is: the one whose request has the echoed
opcode. All four have the same effect (R186), so the last arm's choice for an opcode outside the four
cannot be observed (log entry 17). -/
def ackRow (c : Config) (op : Byte) : Instr :=
  if op = c.opCreate then .rspCreateObject
  else if op = c.opSetPrn then .rspSetReceiptNotification
  else if op = c.opExecute then .rspExecute
  else .rspWriteChunk

/-- `DECODE_SHAPE` (R181 to R186, layouts of R100). -/
def decodeShape (c : Config) (op : Byte) (shape : Shape) (body : Bytes) : Instr :=
  match shape with
  | .protocolVersion => .rspGetProtocolVersion (byteAt body 0)
  | .hardwareVersion =>
      .rspGetHardwareVersion (rdLe32 body 0) (rdLe32 body 4) (rdLe32 body 8) (rdLe32 body 12)
        (rdLe32 body 16)
  | .selectResult => .rspSelectObject (rdLe32 body 0) (rdLe32 body 4) (rdLe32 body 8)
  | .mtu => .rspGetMtu (rdLe16 body 0)
  | .crcResult => .rspGetCrc (rdLe32 body 0) (rdLe32 body 4)
  | .empty => ackRow c op

/-- The body checks after a Success code (R179, R180), then the shape. -/
def decodeBody (c : Config) (op : Byte) (shape : Shape) (body : Bytes) : Except ErrKind Instr :=
  if body.length < c.shapeLenOf shape then
    .error (.malformedResponse (.shortBody shape body.length))
  else if c.strictLength = true ∧ c.shapeLenOf shape < body.length then
    .error (.malformedResponse (.longBody shape body.length))
  else .ok (decodeShape c op shape body)

/-- `PARSE_RESPONSE` as a decoder (R171, R175 to R180; the order is R308's): the response row the payload
is, or the error it raises. A row `rspRejected` is recognised here and raises when it is executed. The
shape is chosen by `out_shape`, never by byte 1 (R99). -/
def decodeResponse (c : Config) (outOp : Byte) (outShape : Shape) : Bytes → Except ErrKind Instr
  | [] => .error (.malformedResponse (.shortEnvelope 0))
  | p0 :: t0 =>
    if p0 ≠ c.opResponse then .error (.protocolDesync (.badResponseOpcode p0))
    else match t0 with
      | [] => .error (.malformedResponse (.shortEnvelope 1))
      | p1 :: t1 =>
        if p1 ≠ outOp then .error (.protocolDesync (.echoMismatch outOp p1))
        else match t1 with
          | [] => .error (.malformedResponse (.shortEnvelope 2))
          | p2 :: body =>
            if p2 ≠ c.resSuccess then .ok (.rspRejected p1 p2)
            else decodeBody c outOp outShape body

/-- One received byte in decoder state `esc` (40_framing_codec.md R135): the symbol it completes, or `none`
for the `ESC` that opens a pair (R138). The order of the tests is the pseudocode's. -/
def symbolOfByte (c : Config) (esc : Bool) (b : Byte) : Option Instr :=
  if esc then
    if b = c.subEnd then some .frameEscEnd
    else if b = c.subEsc then some .frameEscEsc
    else some (.frameBadEscape b)
  else if b = c.endByte then some .frameEnd
  else if b = c.escByte then none
  else some (.frameLiteral b)

/-- The first frame symbol of a byte list and the bytes after it (R91). -/
def decodeSymbol (c : Config) : Bytes → Except DecodeError (Instr × Bytes)
  | [] => .error .emptyInput
  | b :: rest =>
    match symbolOfByte c false b, rest with
    | some i, _ => .ok (i, rest)
    | none, [] => .error .truncatedEscape
    | none, x :: rest' =>
      match symbolOfByte c true x with
      | some i => .ok (i, rest')
      | none => .error .truncatedEscape

/-- The three nested formats (R90). -/
inductive Layer where
  | message
  | envelope (outOp : Byte) (outShape : Shape)
  | symbol
  deriving DecidableEq, Repr

/-- Decode one whole item of a layer. -/
def decode (c : Config) (layer : Layer) (bytes : Bytes) : Except DecodeError Instr :=
  match layer with
  | .message => decodeRequest c bytes
  | .envelope op shape =>
    match decodeResponse c op shape bytes with
    | .ok i => .ok i
    | .error k => .error (.envelope k)
  | .symbol =>
    match decodeSymbol c bytes with
    | .ok (i, []) => .ok i
    | .ok (_, x :: _) => .error (.badLength x bytes.length)
    | .error e => .error e

/-! ## Encoders -/

/-- `ENC_REQ` (R160 to R169, layouts of R94). -/
def encReq (c : Config) : Request → Bytes
  | .getProtocolVersion => [c.opProtocolVersion]
  | .getHardwareVersion => [c.opHwVersion]
  | .selectObject k => [c.opSelect, kindByte c k]
  | .createObject k n => [c.opCreate, kindByte c k] ++ le32 n
  | .setReceiptNotification n => [c.opSetPrn] ++ le16 n
  | .getMtu => [c.opGetMtu]
  | .writeChunk d => [c.opWrite] ++ d
  | .getCrc => [c.opGetCrc]
  | .execute => [c.opExecute]

/-- A Success envelope (R98). -/
def successEnvelope (c : Config) (op : Byte) (body : Bytes) : Bytes :=
  [c.opResponse, op, c.resSuccess] ++ body

/-- The bytes of an item in its own format. -/
def encode (c : Config) : Instr → Bytes
  | .getProtocolVersion => encReq c .getProtocolVersion
  | .getHardwareVersion => encReq c .getHardwareVersion
  | .selectObject k => encReq c (.selectObject k)
  | .createObject k n => encReq c (.createObject k n)
  | .setReceiptNotification n => encReq c (.setReceiptNotification n)
  | .getMtu => encReq c .getMtu
  | .writeChunk d => encReq c (.writeChunk d)
  | .getCrc => encReq c .getCrc
  | .execute => encReq c .execute
  | .rspGetProtocolVersion v => successEnvelope c c.opProtocolVersion [v]
  | .rspGetHardwareVersion a b d e f =>
      successEnvelope c c.opHwVersion (le32 a ++ le32 b ++ le32 d ++ le32 e ++ le32 f)
  | .rspSelectObject a b d => successEnvelope c c.opSelect (le32 a ++ le32 b ++ le32 d)
  | .rspCreateObject => successEnvelope c c.opCreate []
  | .rspSetReceiptNotification => successEnvelope c c.opSetPrn []
  | .rspGetMtu m => successEnvelope c c.opGetMtu (le16 m)
  | .rspWriteChunk => successEnvelope c c.opWrite []
  | .rspGetCrc a b => successEnvelope c c.opGetCrc (le32 a ++ le32 b)
  | .rspExecute => successEnvelope c c.opExecute []
  | .rspRejected echo raw => [c.opResponse, echo, raw]
  | .frameEnd => [c.endByte]
  | .frameEscEnd => [c.escByte, c.subEnd]
  | .frameEscEsc => [c.escByte, c.subEsc]
  | .frameLiteral b => [b]
  | .frameBadEscape x => [c.escByte, x]

/-- The layer an item travels in; a response answers the request its row names, with that request's
shape (R172). -/
def layerOf (c : Config) : Instr → Layer
  | .getProtocolVersion => .message
  | .getHardwareVersion => .message
  | .selectObject _ => .message
  | .createObject _ _ => .message
  | .setReceiptNotification _ => .message
  | .getMtu => .message
  | .writeChunk _ => .message
  | .getCrc => .message
  | .execute => .message
  | .rspGetProtocolVersion _ => .envelope c.opProtocolVersion .protocolVersion
  | .rspGetHardwareVersion _ _ _ _ _ => .envelope c.opHwVersion .hardwareVersion
  | .rspSelectObject _ _ _ => .envelope c.opSelect .selectResult
  | .rspCreateObject => .envelope c.opCreate .empty
  | .rspSetReceiptNotification => .envelope c.opSetPrn .empty
  | .rspGetMtu _ => .envelope c.opGetMtu .mtu
  | .rspWriteChunk => .envelope c.opWrite .empty
  | .rspGetCrc _ _ => .envelope c.opGetCrc .crcResult
  | .rspExecute => .envelope c.opExecute .empty
  | .rspRejected echo _ => .envelope echo (shapeOfOpcode c echo)
  | .frameEnd => .symbol
  | .frameEscEnd => .symbol
  | .frameEscEsc => .symbol
  | .frameLiteral _ => .symbol
  | .frameBadEscape _ => .symbol

/-! ## The frame function of unit U1 (40_framing_codec.md R130 to R132) -/

/-- `sym` (R130). -/
def sym (c : Config) (b : Byte) : Bytes :=
  if b = c.endByte then [c.escByte, c.subEnd]
  else if b = c.escByte then [c.escByte, c.subEsc]
  else [b]

/-- `FRAME(payload)` (R131). -/
def frame (c : Config) (payload : Bytes) : Bytes := payload.flatMap (sym c) ++ [c.endByte]

/-- `ENCODE_FRAME(payload, out)` (R131): it appends and does not clear. -/
def encodeFrame (c : Config) (payload out : Bytes) : Bytes := out ++ frame c payload

/-- The byte-serial encoder (R132): one payload byte per step, then the terminator. -/
def encodeSerial (c : Config) : Bytes → Bytes → Bytes
  | [], out => out ++ [c.endByte]
  | b :: rest, out => encodeSerial c rest (out ++ sym c b)

/-! ## The opcode table's numbers -/

/-- The low `n` bytes of a number, least significant first: byte 0 of an item is bits 7 to 0. -/
def bytesOfWord : Nat → Nat → Bytes
  | 0, _ => []
  | n + 1, w => BitVec.ofNat 8 w :: bytesOfWord n (w / 256)

/-- `bytes` with zero bytes after it, up to `n` bytes. -/
def padTo (n : Nat) (bytes : Bytes) : Bytes := bytes ++ List.replicate (n - bytes.length) 0

/-- How many bytes an item has that starts with `bytes`: the fixed length of its message layout (R94),
of its envelope and shape (R100), or of its frame symbol (R91). -/
def itemLength (c : Config) (bytes : Bytes) : Nat :=
  match bytes with
  | [] => 1
  | b :: rest =>
    if b = c.opCreate then 6
    else if b = c.opSetPrn then 3
    else if b = c.opSelect then 2
    else if b = c.opWrite then max bytes.length 1
    else if b ∈ c.requestOpcodes then 1
    else if b = c.opResponse then
      match rest with
      | op :: code :: _ =>
        if code = c.resSuccess then 3 + c.shapeLenOf (shapeOfOpcode c op) else 3
      | _ => 3
    else if b = c.escByte then 2
    else 1

/-- The layer of an item that stands alone, chosen by its first byte: a request opcode opens a message,
`OP_RESPONSE` an envelope (its shape by byte 1, as R99 allows), any other byte is a frame symbol. An envelope
whose byte 1 is no request opcode is of no row: read as the answer to GetProtocolVersion, it fails the echo
check, as R106 says it can only do (log entry 15). -/
def layerOfBytes (c : Config) (bytes : Bytes) : Layer :=
  match bytes with
  | [] => .symbol
  | b :: rest =>
    if b ∈ c.requestOpcodes then .message
    else if b = c.opResponse then
      if rest.headD 0 ∈ c.requestOpcodes then .envelope (rest.headD 0) (shapeOfOpcode c (rest.headD 0))
      else .envelope c.opProtocolVersion .protocolVersion
    else .symbol

/-- The one item whose first `nbits` bits are `w`, every later bit 0. Bytes of `w` beyond the item's own length
are no part of it and are dropped: R110 does not say what a longer word is, and this is the model's choice
(DESIGN CHOICE, log entry 15). The engine's own parse never comes here; it sees every byte (R171, R180). -/
def itemOfWord (c : Config) (nbits w : Nat) : Bytes :=
  let bytes := bytesOfWord ((nbits + 7) / 8) w
  let whole := padTo (itemLength c bytes) bytes
  whole.take (max (itemLength c bytes) 1)

/-- The opcode-table reading under a configuration. -/
def decodeTable (c : Config) (nbits w : Nat) : Option Instr :=
  match decode c (layerOfBytes c (itemOfWord c nbits w)) (itemOfWord c nbits w) with
  | .ok i => some i
  | .error _ => none

/-- The instruction the decoder reads from the table's number `w` of `nbits` bits, under the defaults the
table is written for (R110). -/
def decodeTableWord (nbits w : Nat) : Option Instr := decodeTable Config.default nbits w

end Sys2Proof
end

