-- ==== Sys2Proof/Machine/State.lean ====
section
/-! DEFINITION. The machine's state as plain data: the engine's registers (10_state.md R20 to R36, one field
each), the parameters of its step relation (R20: configuration, input buffers, stream queues, host
command), and the model's own position inside a microprogram step. -/

namespace Sys2Proof.Machine

/-- `seq` (R21): the session state. -/
inductive Seq where
  | idle
  | connecting
  | negotiated
  | datSelected
  | datCreated
  | datStreaming
  | datCrcChecked
  | datExecuted
  | binSelected
  | binCreated
  | binStreaming
  | binCrcChecked
  | binExecuted
  | done
  | failed
  deriving DecidableEq, Repr

/-- `upc` (R22): the microprogram counter, an enumeration and not an address. -/
inductive Upc where
  | m0
  | m1
  | m2
  | m3
  | m4
  | m5
  | m6
  | m7
  | m8
  | m9
  | m10
  | m11
  | m12
  | m13
  | m14
  | mf
  deriving DecidableEq, Repr

/-- The readable spaces of `MemRead` (20_memory.md R60, R63). -/
inductive Space where
  | initMem
  | fwpad
  deriving DecidableEq, Repr

/-- Where the engine stands inside microprogram step `upc`. The MODEL's own field: one step of the engine
is one stream action, one stream event or one register transfer (00_scope.md R6), and `upc` does not move
during a microprogram step (R22). Log entry 4. -/
inductive Phase where
  /-- The step's own register transfers come next, up to its first request. -/
  | enter
  /-- `SEND(r)`: the message is encoded and framed next (42_transport_channel.md R211). -/
  | send (r : Request)
  /-- `ENC_REQ` has been evaluated to this message, and nothing sends it (41_message_protocol.md R162). -/
  | encoded (msg : Bytes)
  /-- `SEND(r)`: `TxWrite(tx_buf)` comes next. -/
  | write (r : Request)
  /-- `SEND(r)`: `TxFlush()` comes next. -/
  | flush (r : Request)
  /-- A fragment has been sent; its CRC and pointer updates come next (44_session_sequencer.md R268). -/
  | sent (frag : Bytes)
  /-- `STREAM`: its loop test comes next. -/
  | stream
  /-- `DECODE_FRAME`: `RxRead()` comes next (40_framing_codec.md R135). -/
  | recv
  /-- `PARSE_RESPONSE(rx_buf)` comes next (41_message_protocol.md R171). -/
  | parse
  /-- `XACT` has returned; what the step does with the response comes next. -/
  | finish
  deriving DecidableEq, Repr

/-- The results of `RxRead` (00_scope.md R8). -/
inductive RxEvent where
  | byte (b : Byte)
  | eof
  | timeout
  | ioErr
  deriving DecidableEq, Repr

/-- The results of `TxWrite` and `TxFlush` (R8). A failed write has put a prefix of the frame on the line,
`reached` bytes of it (93_implementation_defined.md U6: any prefix, the environment's choice). -/
inductive TxResult where
  | ok
  | ioErr (reached : Nat)
  deriving DecidableEq, Repr

/-- An entry of `TX_LOG` (10_state.md R39): a byte handed to `TxWrite`, or the mark of a `TxFlush`; the
mark of a flush that answered `IoErr` is kept apart (log entry 7). -/
inductive TxMark where
  | byte (b : Byte)
  | flushed
  | flushFailed
  deriving DecidableEq, Repr

/-- `rsp.hw` (R33). -/
structure HwInfo where
  part : U32
  variant : U32
  romSize : U32
  ramSize : U32
  romPageSize : U32
  deriving DecidableEq, Repr

/-- `rsp.sel` (R33). -/
structure SelInfo where
  maxSize : U32
  offset : U32
  crc : U32
  deriving DecidableEq, Repr

/-- `rsp.crc` (R33). -/
structure CrcInfo where
  offset : U32
  crc : U32
  deriving DecidableEq, Repr

/-- `rsp` (R33): the fields of the last successfully parsed response. -/
structure Rsp where
  version : Byte
  hw : HwInfo
  sel : SelInfo
  mtu : U16
  crc : CrcInfo
  deriving DecidableEq, Repr

/-- `err` (R36): kind with its information, and the step at which it was raised. -/
structure ErrRecord where
  kind : ErrKind
  step : Upc
  deriving DecidableEq, Repr

/-- The host's command `Start(init_bytes, fw_bytes)` (R8). -/
structure StartCmd where
  initBytes : Bytes
  fwBytes : Bytes
  deriving DecidableEq, Repr

/-- The machine. -/
structure State where
  /-- R21 -/
  seq : Seq
  /-- R22 -/
  upc : Upc
  /-- R23 -/
  mtu : U16
  /-- R24 -/
  maxSize : U32
  /-- R25 -/
  initLen : U32
  /-- R25 -/
  fwLen : U32
  /-- R25 -/
  fwPlen : U32
  /-- R26 -/
  fwOff : U32
  /-- R26 -/
  chunkLen : U32
  /-- R27 -/
  strSpace : Space
  /-- R27 -/
  strBase : U32
  /-- R27 -/
  strLen : U32
  /-- R27 -/
  strPtr : U32
  /-- R27: an integer, since it may be zero or negative. -/
  fragMax : Int
  /-- R28, in digest form -/
  crcAcc : U32
  /-- R29 -/
  txBuf : Bytes
  /-- R30 -/
  rxBuf : Bytes
  /-- R31 -/
  rxEsc : Bool
  /-- R32 -/
  awaiting : Bool
  /-- R32 -/
  outOp : Byte
  /-- R32 -/
  outShape : Shape
  /-- R33 -/
  rsp : Rsp
  /-- R35 -/
  errValid : Bool
  /-- R36 -/
  err : ErrRecord
  /-- The configuration record (00_scope.md R9), constant for the life of the model (R37). -/
  cfg : Config
  /-- The caller's init packet (20_memory.md R61). -/
  initMem : Bytes
  /-- The caller's firmware image (R61). -/
  fwMem : Bytes
  /-- `RX_FIFO` with the end events the environment will deliver (R39): the results of the coming `RxRead`s. -/
  rx : List RxEvent
  /-- The results of the coming `TxWrite`s and `TxFlush`es (R8). -/
  tx : List TxResult
  /-- `TX_LOG` (R39), oldest entry first; never read by the engine. -/
  txLog : List TxMark
  /-- A `Start` the host has issued and the engine has not taken yet (44_session_sequencer.md R252). -/
  cmd : Option StartCmd
  /-- The stream's hardware ready signal, neither driven nor sampled (60_exceptions.md R322). -/
  ready : Bool
  /-- The model's own field; see `Phase`. -/
  phase : Phase
  deriving DecidableEq, Repr

/-- Why the model's machine stops. The engine's own errors are no faults: they are taken as aborts. -/
inductive Fault where
  /-- `MemRead` outside its space, raised by the STREAM loop of the step function. 20_memory.md R63 lets a
  model make it a fault and says that no run reaches it. Safe: the machine stops (log entry 12). -/
  | memReadOutOfRange (space : Space) (addr n : Nat)
  deriving DecidableEq, Repr

/-- Why the model gives an instruction no meaning. -/
inductive Refusal where
  /-- An instruction whose meaning is not written; raised by `exec`'s arms only, and by none of them here.
  Safe: nothing can be proved of what such an instruction does. -/
  | notModelled (mnemonic : String)
  deriving DecidableEq, Repr

/-- Values of `rsp` at reset: unspecified by R40 (DESIGN CHOICE, log entry 3, unsafe). -/
def Rsp.reset : Rsp where
  version := 0
  hw := { part := 0, variant := 0, romSize := 0, ramSize := 0, romPageSize := 0 }
  sel := { maxSize := 0, offset := 0, crc := 0 }
  mtu := 0
  crc := { offset := 0, crc := 0 }

/-- A new Session under configuration `c` on a silent stream (R40, 70_reset_and_hazards.md R350). R40 gives
`seq`, `upc`, `err_valid`, `awaiting`, `rx_esc`, `tx_buf` and `rx_buf`; every other register's value is
unspecified there (DESIGN CHOICE zero, log entry 3, unsafe). -/
def State.resetWith (c : Config) : State where
  seq := .idle
  upc := .m0
  mtu := 0
  maxSize := 0
  initLen := 0
  fwLen := 0
  fwPlen := 0
  fwOff := 0
  chunkLen := 0
  strSpace := .initMem
  strBase := 0
  strLen := 0
  strPtr := 0
  fragMax := 0
  crcAcc := 0
  txBuf := []
  rxBuf := []
  rxEsc := false
  awaiting := false
  outOp := 0
  outShape := .empty
  rsp := Rsp.reset
  errValid := false
  err := { kind := .noError, step := .m0 }
  cfg := c
  initMem := []
  fwMem := []
  rx := []
  tx := []
  txLog := []
  cmd := none
  ready := false
  phase := .enter

/-- The machine right after reset, under the default parameters (R40, R9; log entry 1). -/
def State.reset : State := State.resetWith Config.default

end Sys2Proof.Machine
end

