-- ==== Sys2Proof/Machine/Crc.lean ====
section
/-! DEFINITION. The CRC accumulator (unit U5, 43_crc_accumulator.md), on digest-form state (R232). -/

namespace Sys2Proof.Machine

/-- One shift of the register form (R233). -/
def crcShift (r : U32) : U32 := if r.getLsbD 0 then (r >>> 1) ^^^ 0xEDB88320 else r >>> 1

/-- The default `crc_step` (R233): to register form, byte in at the low end, eight shifts, back. -/
def crcStepIeee (s : U32) (b : Byte) : U32 :=
  crcShift^[8] ((s ^^^ 0xFFFFFFFF) ^^^ b.setWidth 32) ^^^ 0xFFFFFFFF

/-- `crc_step` (R231 L4) of the configured algorithm. -/
def crcStep (c : Config) (s : U32) (b : Byte) : U32 :=
  match c.crc with
  | .ieee => crcStepIeee s b
  | .other n => Config.otherCrcStep n s b

/-- `CRC32(data, s)` (R231, R234). -/
def crc32 (c : Config) (data : Bytes) (s : U32) : U32 := data.foldl (crcStep c) s

/-- `CRC_LOAD(v)` (R230). -/
def crcLoad (v : U32) (s : State) : State := { s with crcAcc := v }

/-- `CRC_BYTE(b)` (R230). -/
def crcByte (b : Byte) (s : State) : State := { s with crcAcc := crcStep s.cfg s.crcAcc b }

/-- `CRC_BYTE` for each byte of a list in order (R235, R268). -/
def crcBytes : Bytes → State → State
  | [], s => s
  | b :: rest, s => crcBytes rest (crcByte b s)

end Sys2Proof.Machine
end

