-- ==== Sys2Proof/Machine/Flags.lean ====
section
/-! DEFINITION. The engine's three 1-bit flags and no others (10_state.md R34): `rx_esc` (R31), `awaiting`
(R32) and `err_valid` (R35, written by the abort of Ops.lean alone). -/

namespace Sys2Proof.Machine

/-- An unescaped `ESC` was consumed (40_framing_codec.md R138). -/
def setEsc (s : State) : State := { s with rxEsc := true }

/-- Its substitute was consumed (R140). -/
def clearEsc (s : State) : State := { s with rxEsc := false }

/-- An XACT has flushed its request: the flag and what it waits for (42_transport_channel.md R214). -/
def setAwaiting (r : Request) (s : State) : State :=
  { s with outOp := opcodeOf s.cfg r, outShape := shapeFor r, awaiting := true }

/-- Its response has been parsed (R214). -/
def clearAwaiting (s : State) : State := { s with awaiting := false }

end Sys2Proof.Machine
end

