-- ==== Sys2Proof/Machine/Operands.lean ====
section
/-! DEFINITION. Operands: the byte spaces of 20_memory.md and the arithmetic by which the sequencer forms
the lengths and the requests of 44_session_sequencer.md. -/

namespace Sys2Proof.Machine

/-- The padded length (R68, R252, R272); a free value if `PAD_ALIGN` is 0, which R9 forbids. -/
def paddedLength (c : Config) (n : Nat) : Nat :=
  if c.padAlign = 0 then Config.padZeroAlign n
  else (n + c.padAlign - 1) / c.padAlign * c.padAlign

/-- A length latched into a u32 register (R25); a free value if it does not fit (log entry 9). -/
def latchLength (n : Nat) : U32 := if n < 2 ^ 32 then BitVec.ofNat 32 n else Config.unfitLength n

/-- `init_mem`, whose length is `init_len` (R60). -/
def initView (s : State) : Bytes := s.initMem.take s.initLen.toNat

/-- `fwpad` (R62): the image, then `PAD_BYTE` up to `fw_plen`. -/
def fwpad (s : State) : Bytes :=
  (s.fwMem.take s.fwLen.toNat ++ List.replicate (s.fwPlen.toNat - s.fwLen.toNat) s.cfg.padByte).take
    s.fwPlen.toNat

/-- The bytes of a readable space (R60). -/
def spaceBytes (s : State) : Space → Bytes
  | .initMem => initView s
  | .fwpad => fwpad s

/-- One byte of a readable space, if the index exists. -/
def readByte (s : State) (space : Space) (i : Nat) : Option Byte := (spaceBytes s space)[i]?

/-- `MemRead(space, addr, n)` (R13, R63): defined only inside the space. -/
def memRead (s : State) (space : Space) (addr n : Nat) : Option Bytes :=
  if addr + n ≤ (spaceBytes s space).length then some (((spaceBytes s space).drop addr).take n) else none

/-- `frag_max` in integers with floor division (R268, R271). -/
def fragMaxOf (mtu : U16) : Int := ((mtu.toNat : Int) - 1) / 2 - 1

/-- `min` on u32, unsigned (R273). -/
def minU32 (a b : U32) : U32 := if a.toNat ≤ b.toNat then a else b

/-- `min(max_size, fw_plen - fw_off)` (R262). -/
def chunkLengthOf (s : State) : U32 := minU32 s.maxSize (s.fwPlen - s.fwOff)

/-- `k` of the STREAM loop (R268). -/
def fragLengthOf (s : State) : Nat := min s.fragMax.toNat (s.strLen.toNat - s.strPtr.toNat)

/-- The request that a microprogram step exchanges, with its operands (the table of R250); `none` for the
steps that exchange nothing. M10's is that of a step with bytes left (R262). -/
def stepRequest (s : State) : Option Request :=
  match s.upc with
  | .m0 => none
  | .m1 => some .getProtocolVersion
  | .m2 => some .getMtu
  | .m3 => some (.setReceiptNotification s.cfg.prnDisable)
  | .m4 => some (.selectObject .command)
  | .m5 => some (.createObject .command s.initLen)
  | .m6 => none
  | .m7 => some .getCrc
  | .m8 => some .execute
  | .m9 => some (.selectObject .data)
  | .m10 => some (.createObject .data (chunkLengthOf s))
  | .m11 => none
  | .m12 => some .getCrc
  | .m13 => some .execute
  | .m14 => none
  | .mf => none

/-- The byte spaces are in order: the length registers name the buffers' lengths (R25, R60, R68) and the
receive buffer is within its capacity (R30, R142). The buffers are dense lists, so equal spaces are
equal data as they stand (log entry 13). -/
def Memory.wf (s : State) : Bool :=
  decide (s.initMem.length = s.initLen.toNat) && decide (s.fwMem.length = s.fwLen.toNat) &&
    decide (s.fwPlen.toNat = paddedLength s.cfg s.fwMem.length) &&
    decide (∀ n ∈ s.cfg.rxCap, s.rxBuf.length ≤ n)

end Sys2Proof.Machine
end

