-- ==== Sys2Proof/Machine/Ops.lean ====
section
/-! DEFINITION. The named operations over registers, buffers and the stream that the meanings share: the
abort, SEND and XACT, APPEND, the writers of `rsp`, STREAM's pieces, and what the host and the
environment can do to the machine. -/

namespace Sys2Proof.Machine

/-! ## The abort (60_exceptions.md R312)

The engine's one exception entry. There is no return from it (R314): `MF` is a halt state. -/

/-- `raise kind`: `err`, `err_valid`, `seq` and `upc` are written and nothing else. -/
def raise (kind : ErrKind) (s : State) : State :=
  { s with err := { kind := kind, step := s.upc }, errValid := true, seq := .failed, upc := .mf }

/-- The code a host reads (R301, R316): 0 while `err_valid` is 0. -/
def errCode (s : State) : Nat := if s.errValid then s.err.kind.code else 0

/-- `M14` and `MF` (R266). -/
def halted (s : State) : Bool := decide (s.upc = .m14) || decide (s.upc = .mf)

/-! ## Control -/

/-- The engine moves on inside the microprogram step. -/
def setPhase (p : Phase) (s : State) : State := { s with phase := p }

/-- `seq <- q` at the start of a streaming step (R258, R263). -/
def setSeq (q : Seq) (s : State) : State := { s with seq := q }

/-- A microprogram step is over: `seq` after it and the step that follows (R250). -/
def goTo (q : Seq) (u : Upc) (s : State) : State := { s with seq := q, upc := u, phase := .enter }

/-- The microprogram step turns to its exchange. -/
def begin (r : Request) (s : State) : State := setPhase (.send r) s

/-- `mtu <- v` (R23). -/
def setMtu (v : U16) (s : State) : State := { s with mtu := v }

/-- `max_size <- v` (R24). -/
def setMaxSize (v : U32) (s : State) : State := { s with maxSize := v }

/-- `fw_off <- v` (R26). -/
def setFwOff (v : U32) (s : State) : State := { s with fwOff := v }

/-- `chunk_len <- v` (R26). -/
def setChunkLen (v : U32) (s : State) : State := { s with chunkLen := v }

/-- `Start` binds the buffers and latches their lengths (R25, R61, R252). -/
def latchStart (cmd : StartCmd) (s : State) : State :=
  { s with
    cmd := none, initMem := cmd.initBytes, fwMem := cmd.fwBytes,
    initLen := latchLength cmd.initBytes.length, fwLen := latchLength cmd.fwBytes.length,
    fwPlen := latchLength (paddedLength s.cfg cmd.fwBytes.length) }

/-! ## SEND and XACT (42_transport_channel.md R211, R214) -/

/-- `msg <- ENC_REQ(r)`; `tx_buf <- []`; `ENCODE_FRAME(msg, tx_buf)` (R211, R212). -/
def sendEncode (r : Request) (s : State) : State :=
  { s with txBuf := encodeFrame s.cfg (encReq s.cfg r) [], phase := .write r }

/-- The first `n` bytes of `tx_buf` reach the log, as the answer `TxWrite` gave is consumed. -/
def logWrite (n : Nat) (rest : List TxResult) (s : State) : State :=
  { s with tx := rest, txLog := s.txLog ++ (s.txBuf.take n).map TxMark.byte }

/-- `TxWrite(tx_buf)` (R211, R303, U6). With no answer from the stream yet the engine is blocked (R217). -/
def txWrite (r : Request) (s : State) : State :=
  match s.tx with
  | [] => s
  | .ok :: rest => setPhase (.flush r) (logWrite s.txBuf.length rest s)
  | .ioErr n :: rest => raise (.transport .write) (logWrite n rest s)

/-- The answer of `TxFlush` is consumed and the flush is marked in the log. -/
def logFlush (m : TxMark) (rest : List TxResult) (s : State) : State :=
  { s with tx := rest, txLog := s.txLog ++ [m] }

/-- `TxFlush()` (R211, R303), then whatever follows the SEND. -/
def txFlush (after : State → State) (s : State) : State :=
  match s.tx with
  | [] => s
  | .ok :: rest => after (logFlush .flushed rest s)
  | .ioErr _ :: rest => raise (.transport .flush) (logFlush .flushFailed rest s)

/-- `SEND(r)`, one R6 step of it: encode, then write, then flush, by the phase the engine is in; `after` is
what follows the flush. -/
def sendStep (after : State → State) (r : Request) (s : State) : State :=
  match s.phase with
  | .write _ => txWrite r s
  | .flush _ => txFlush after s
  | _ => sendEncode r s

/-- Entry of `DECODE_FRAME` (40_framing_codec.md R136). -/
def beginDecode (s : State) : State := { s with rxBuf := [], rxEsc := false, phase := .recv }

/-- The issuing half of `XACT(r)` (R214): SEND, then wait for the answer. -/
def transact (r : Request) (s : State) : State :=
  sendStep (fun t => beginDecode (setAwaiting r t)) r s

/-- `ENC_REQ(r)` alone (41_message_protocol.md R160: it writes no register): the message is in hand, nothing is
framed, sent or awaited. -/
def encodeOnly (r : Request) (s : State) : State := setPhase (.encoded (encReq s.cfg r)) s

/-- `SEND(WriteChunk(d))` with no response awaited (44_session_sequencer.md R268): STREAM goes on with the
fragment. -/
def sendChunk (d : Bytes) (s : State) : State :=
  sendStep (setPhase (.sent d)) (.writeChunk d) s

/-! ## DECODE_FRAME (40_framing_codec.md R135 to R142) -/

/-- `RX_CAP` would be exceeded by one more byte (R142). -/
def rxFull (s : State) : Bool :=
  match s.cfg.rxCap with
  | none => false
  | some n => decide (n ≤ s.rxBuf.length)

/-- `rx_buf <- rx_buf ++ [b]` (R142). -/
def pushRx (b : Byte) (s : State) : State := { s with rxBuf := s.rxBuf ++ [b] }

/-- `APPEND(b)` (R142), then `k` if it did not raise. -/
def appendRx (b : Byte) (k : State → State) (s : State) : State :=
  if rxFull s then raise (.framing .overflow) s else k (pushRx b s)

/-- `return rx_buf` (R137): the payload is complete. -/
def endFrame (s : State) : State := setPhase .parse s

/-- The event `RxRead` returned is consumed (20_memory.md R71). -/
def popRx (rest : List RxEvent) (s : State) : State := { s with rx := rest }

/-! ## Responses (41_message_protocol.md R174) -/

/-- A response has been decoded: `rsp` takes its members, `awaiting` is cleared (R214), and the microprogram
step goes on. -/
def respond (v : Rsp) (s : State) : State := { clearAwaiting s with rsp := v, phase := .finish }

/-! ## STREAM (44_session_sequencer.md R268) -/

/-- The five streaming registers (R27). -/
def loadStream (space : Space) (base len : U32) (s : State) : State :=
  { s with
    strSpace := space, strBase := base, strLen := len, strPtr := 0, fragMax := fragMaxOf s.mtu }

/-- Entry of `STREAM(space, base, n)` up to its loop (R268, R270). -/
def beginStream (space : Space) (base len : U32) (s : State) : State :=
  let t := loadStream space base len s
  if t.fragMax < 1 then raise (.modelFault (.mtuTooSmall s.mtu)) t else setPhase .stream t

/-- `str_ptr <- str_ptr + k` (R268). -/
def advancePtr (k : Nat) (s : State) : State := { s with strPtr := s.strPtr + BitVec.ofNat 32 k }

/-- After the SEND of a fragment: `CRC_BYTE` for each byte, then `str_ptr` advances (R268). -/
def fragDone (frag : Bytes) (s : State) : State :=
  setPhase .stream (advancePtr frag.length (crcBytes frag s))

/-! ## What the host and the environment can do (00_scope.md R7, R8) -/

/-- The host issues `Start` (R252): taken while `upc` is M0 and no `Start` is pending, ignored otherwise
(R252, D43). -/
def hostStart (initBytes fwBytes : Bytes) (s : State) : State :=
  if s.upc = .m0 ∧ s.cmd = none then
    { s with cmd := some { initBytes := initBytes, fwBytes := fwBytes } }
  else s

/-- The environment settles one more result of `RxRead` (R39). -/
def deliver (e : RxEvent) (s : State) : State := { s with rx := s.rx ++ [e] }

/-- The environment settles one more result of a write or flush (R8). -/
def answerTx (e : TxResult) (s : State) : State := { s with tx := s.tx ++ [e] }

/-- Reset of a machine in use: the creation of a new Session (70_reset_and_hazards.md R350). The engine's
registers return to their reset values; the stream, the log, the ready line and the parameters are not
touched (R351). -/
def newSession (s : State) : State :=
  { State.resetWith s.cfg with rx := s.rx, tx := s.tx, txLog := s.txLog, ready := s.ready }

/-- A machine for a configuration; one that breaks a constraint is refused (R10; log entry 11). -/
def boot (c : Config) : Option State := if c.Ok then some (State.resetWith c) else none

end Sys2Proof.Machine
end

