-- ==== Sys2Proof/Machine/Frames.lean ====
section
/-! DEFINITION. The frame symbols as the decoder meets them (40_framing_codec.md R137 to R142). The bytes of
the symbol have been consumed by `RxRead` when its meaning runs. -/

namespace Sys2Proof.Machine

/-- R137: the frame ends; `rx_buf` is the payload. -/
def execFrameEnd (s : State) : Host.Outcome State Fault Refusal :=
  .next (endFrame s)

/-- R140: `APPEND(END)`; `rx_esc <- 0`. -/
def execFrameEscEnd (s : State) : Host.Outcome State Fault Refusal :=
  .next (appendRx s.cfg.endByte clearEsc s)

/-- R140: `APPEND(ESC)`; `rx_esc <- 0`. -/
def execFrameEscEsc (s : State) : Host.Outcome State Fault Refusal :=
  .next (appendRx s.cfg.escByte clearEsc s)

/-- R139: `APPEND(b)`. -/
def execFrameLiteral (b : Byte) (s : State) : Host.Outcome State Fault Refusal :=
  .next (appendRx b id s)

/-- R140: raises FramingError(BadEscape, x). -/
def execFrameBadEscape (x : Byte) (s : State) : Host.Outcome State Fault Refusal :=
  .next (raise (.framing (.badEscape x)) s)

end Sys2Proof.Machine
end

