-- ==== Sys2Proof/Machine/Requests.lean ====
section
/-! DEFINITION. The nine requests (41_message_protocol.md R161 to R169). Each meaning but one is one R6 step of the
request's SEND or XACT (42_transport_channel.md R211, R214), chosen by the phase: its message is encoded
and framed; the frame is written; it is flushed and, but for WriteChunk, its response is awaited.
GetHardwareVersion is encoded and nothing more (R162). -/

namespace Sys2Proof.Machine

/-- R161 -/
def execGetProtocolVersion (s : State) : Host.Outcome State Fault Refusal :=
  .next (transact .getProtocolVersion s)

/-- R162: exposed as its encoding (and the parse of its answer, R182) only; never sent. -/
def execGetHardwareVersion (s : State) : Host.Outcome State Fault Refusal :=
  .next (encodeOnly .getHardwareVersion s)

/-- R163 -/
def execSelectObject (kind : ObjectKind) (s : State) : Host.Outcome State Fault Refusal :=
  .next (transact (.selectObject kind) s)

/-- R164 -/
def execCreateObject (kind : ObjectKind) (size : U32) (s : State) : Host.Outcome State Fault Refusal :=
  .next (transact (.createObject kind size) s)

/-- R165 -/
def execSetReceiptNotification (everyN : U16) (s : State) : Host.Outcome State Fault Refusal :=
  .next (transact (.setReceiptNotification everyN) s)

/-- R166 -/
def execGetMtu (s : State) : Host.Outcome State Fault Refusal :=
  .next (transact .getMtu s)

/-- R167: sent with SEND, its response never awaited. -/
def execWriteChunk (data : Bytes) (s : State) : Host.Outcome State Fault Refusal :=
  .next (sendChunk data s)

/-- R168 -/
def execGetCrc (s : State) : Host.Outcome State Fault Refusal :=
  .next (transact .getCrc s)

/-- R169 -/
def execExecute (s : State) : Host.Outcome State Fault Refusal :=
  .next (transact .execute s)

end Sys2Proof.Machine
end

