-- ==== Sys2Proof/Machine/Responses.lean ====
section
/-! DEFINITION. The responses (41_message_protocol.md R178, R181 to R186). The envelope checks have been
made by `decodeResponse`; a meaning writes the members of its own shape and ends the wait (R33, R214). -/

namespace Sys2Proof.Machine

/-- R181 -/
def execRspGetProtocolVersion (version : Byte) (s : State) : Host.Outcome State Fault Refusal :=
  .next (respond { s.rsp with version := version } s)

/-- R182 -/
def execRspGetHardwareVersion (part variant romSize ramSize romPageSize : U32) (s : State) :
    Host.Outcome State Fault Refusal :=
  .next (respond
    { s.rsp with
      hw :=
        { part := part, variant := variant, romSize := romSize, ramSize := ramSize,
          romPageSize := romPageSize } } s)

/-- R183 -/
def execRspSelectObject (maxSize offset crc : U32) (s : State) : Host.Outcome State Fault Refusal :=
  .next (respond { s.rsp with sel := { maxSize := maxSize, offset := offset, crc := crc } } s)

/-- R186 -/
def execRspCreateObject (s : State) : Host.Outcome State Fault Refusal :=
  .next (respond s.rsp s)

/-- R186 -/
def execRspSetReceiptNotification (s : State) : Host.Outcome State Fault Refusal :=
  .next (respond s.rsp s)

/-- R184 -/
def execRspGetMtu (mtu : U16) (s : State) : Host.Outcome State Fault Refusal :=
  .next (respond { s.rsp with mtu := mtu } s)

/-- R186; the shape exists and is never awaited (R167). -/
def execRspWriteChunk (s : State) : Host.Outcome State Fault Refusal :=
  .next (respond s.rsp s)

/-- R185 -/
def execRspGetCrc (offset crc : U32) (s : State) : Host.Outcome State Fault Refusal :=
  .next (respond { s.rsp with crc := { offset := offset, crc := crc } } s)

/-- R186 -/
def execRspExecute (s : State) : Host.Outcome State Fault Refusal :=
  .next (respond s.rsp s)

/-- R178: raises DeviceRejection with the raw code and its name; the body is not looked at. `awaiting`
stays as it was (R214). The echo has been compared by the decoder. -/
def execRspRejected (_echo raw : Byte) (s : State) : Host.Outcome State Fault Refusal :=
  .next (raise (.deviceRejection raw (s.cfg.resName raw)) s)

end Sys2Proof.Machine
end

