-- ==== Sys2Proof/Machine/Dispatch.lean ====
section
/-! DEFINITION. One arm per constructor of Instr. -/

namespace Sys2Proof.Machine

def exec (i : Instr) (s : State) : Host.Outcome State Fault Refusal :=
  match i with
  | .getProtocolVersion => Sys2Proof.Machine.execGetProtocolVersion s
  | .getHardwareVersion => Sys2Proof.Machine.execGetHardwareVersion s
  | .selectObject kind => Sys2Proof.Machine.execSelectObject kind s
  | .createObject kind size => Sys2Proof.Machine.execCreateObject kind size s
  | .setReceiptNotification everyN => Sys2Proof.Machine.execSetReceiptNotification everyN s
  | .getMtu => Sys2Proof.Machine.execGetMtu s
  | .writeChunk data => Sys2Proof.Machine.execWriteChunk data s
  | .getCrc => Sys2Proof.Machine.execGetCrc s
  | .execute => Sys2Proof.Machine.execExecute s
  | .rspGetProtocolVersion version => Sys2Proof.Machine.execRspGetProtocolVersion version s
  | .rspGetHardwareVersion part variant romSize ramSize romPageSize => Sys2Proof.Machine.execRspGetHardwareVersion part variant romSize ramSize romPageSize s
  | .rspSelectObject maxSize offset crc => Sys2Proof.Machine.execRspSelectObject maxSize offset crc s
  | .rspCreateObject => Sys2Proof.Machine.execRspCreateObject s
  | .rspSetReceiptNotification => Sys2Proof.Machine.execRspSetReceiptNotification s
  | .rspGetMtu mtu => Sys2Proof.Machine.execRspGetMtu mtu s
  | .rspWriteChunk => Sys2Proof.Machine.execRspWriteChunk s
  | .rspGetCrc offset crc => Sys2Proof.Machine.execRspGetCrc offset crc s
  | .rspExecute => Sys2Proof.Machine.execRspExecute s
  | .rspRejected echo raw => Sys2Proof.Machine.execRspRejected echo raw s
  | .frameEnd => Sys2Proof.Machine.execFrameEnd s
  | .frameEscEnd => Sys2Proof.Machine.execFrameEscEnd s
  | .frameEscEsc => Sys2Proof.Machine.execFrameEscEsc s
  | .frameLiteral b => Sys2Proof.Machine.execFrameLiteral b s
  | .frameBadEscape x => Sys2Proof.Machine.execFrameBadEscape x s

end Sys2Proof.Machine
end

