-- ==== Sys2Proof/Machine/Sequencer.lean ====
section
/-! DEFINITION. The session sequencer (unit U6, 44_session_sequencer.md): what the engine does in each phase of
a microprogram step, and how it comes by the instruction it executes: a request is selected by the step,
a frame symbol is read byte by byte from `RX`, a response is the decoded payload. -/

namespace Sys2Proof.Machine

/-! ## Entering a microprogram step -/

/-- `Start` is taken (R252): the buffers are bound and their lengths latched, then the precondition of R251
is checked. -/
def takeStart (cmd : StartCmd) (s : State) : State :=
  if cmd.initBytes.length < 2 ^ 32 ∧ paddedLength s.cfg cmd.fwBytes.length < 2 ^ 32 then
    goTo .connecting .m1 (latchStart cmd s)
  else raise (.modelFault .lengthTooLarge) (latchStart cmd s)

/-- M6 opens the stream of the init packet (R258). -/
def openDat (s : State) : State :=
  beginStream .initMem 0 s.initLen (crcLoad 0 (setSeq .datStreaming s))

/-- M11 opens the stream of the chunk; `crc_acc` is not reloaded (R263). -/
def openBin (s : State) : State := beginStream .fwpad s.fwOff s.chunkLen (setSeq .binStreaming s)

/-- A step that begins with an exchange turns to its request (R250). -/
def enterExchange (s : State) : State :=
  match stepRequest s with
  | some r => begin r s
  | none => s

/-- The register transfers of a step before its exchange or its STREAM: R252 (M0), R258 (M6), R262 (M10),
R263 (M11), R266 (M14, MF). -/
def enterStep (s : State) : State :=
  match s.upc with
  | .m0 =>
    match s.cmd with
    | none => s
    | some cmd => takeStart cmd s
  | .m1 => enterExchange s
  | .m2 => enterExchange s
  | .m3 => enterExchange s
  | .m4 => enterExchange s
  | .m5 => enterExchange s
  | .m6 => openDat s
  | .m7 => enterExchange s
  | .m8 => enterExchange s
  | .m9 => enterExchange s
  | .m10 =>
    if s.fwOff = s.fwPlen then goTo .done .m14 s
    else enterExchange (setChunkLen (chunkLengthOf s) s)
  | .m11 => openBin s
  | .m12 => enterExchange s
  | .m13 => enterExchange s
  | .m14 => s
  | .mf => s

/-! ## Finishing a microprogram step -/

/-- The CRC check of M7 and M12 (R259, R264). -/
def checkCrc (q : Seq) (u : Upc) (s : State) : State :=
  if s.rsp.crc.crc ≠ s.crcAcc then raise (.integrity s.crcAcc s.rsp.crc.crc) s else goTo q u s

/-- M9 with its response (R261, R278). -/
def finishSelectData (s : State) : State :=
  let t := setMaxSize s.rsp.sel.maxSize s
  if t.maxSize = 0 then raise (.modelFault .maxSizeZero) t
  else goTo .binSelected .m10 (crcLoad 0 (setFwOff 0 t))

/-- What a step does once its exchange has returned (R253 to R265). A step without an exchange never comes
here; it would start again (log entry 19). -/
def finishStep (s : State) : State :=
  match s.upc with
  | .m1 =>
    if s.rsp.version ≠ s.cfg.supportedVersion then raise (.versionMismatch s.rsp.version) s
    else goTo .connecting .m2 s
  | .m2 => goTo .connecting .m3 (setMtu s.rsp.mtu s)
  | .m3 => goTo .negotiated .m4 s
  | .m4 => goTo .datSelected .m5 s
  | .m5 => goTo .datCreated .m6 s
  | .m7 => checkCrc .datCrcChecked .m8 s
  | .m8 => goTo .datExecuted .m9 s
  | .m9 => finishSelectData s
  | .m10 => goTo .binCreated .m11 s
  | .m12 => checkCrc .binCrcChecked .m13 s
  | .m13 => goTo .binExecuted .m10 (setFwOff (s.fwOff + s.chunkLen) s)
  | .m0 => setPhase .enter s
  | .m6 => setPhase .enter s
  | .m11 => setPhase .enter s
  | .m14 => setPhase .enter s
  | .mf => setPhase .enter s

/-! ## STREAM -/

/-- The step that follows a STREAM (R258, R263): M6 goes to M7 and M11 to M12, `seq` unchanged. No other
step streams (log entry 19). -/
def endStream (s : State) : State :=
  match s.upc with
  | .m6 => goTo s.seq .m7 s
  | .m11 => goTo s.seq .m12 s
  | .m0 => setPhase .enter s
  | .m1 => setPhase .enter s
  | .m2 => setPhase .enter s
  | .m3 => setPhase .enter s
  | .m4 => setPhase .enter s
  | .m5 => setPhase .enter s
  | .m7 => setPhase .enter s
  | .m8 => setPhase .enter s
  | .m9 => setPhase .enter s
  | .m10 => setPhase .enter s
  | .m12 => setPhase .enter s
  | .m13 => setPhase .enter s
  | .m14 => setPhase .enter s
  | .mf => setPhase .enter s

/-- The loop test of STREAM, and the next fragment with the SEND it goes to (R268). -/
def streamStep (s : State) : Host.Outcome State Fault Refusal :=
  if s.strPtr.toNat < s.strLen.toNat then
    match memRead s s.strSpace (s.strBase.toNat + s.strPtr.toNat) (fragLengthOf s) with
    | some frag => .next (begin (.writeChunk frag) s)
    | none =>
      .fault (.memReadOutOfRange s.strSpace (s.strBase.toNat + s.strPtr.toNat) (fragLengthOf s))
  else .next (endStream s)

/-! ## Fetching: the serial line and the payload -/

/-- One `RxRead` of `DECODE_FRAME` (40_framing_codec.md R135). No event: the engine is blocked (R217). An end
event raises (R141). The `ESC` that opens a pair sets `rx_esc` (R138). Any other byte completes a symbol,
which is executed. -/
def recvStep (s : State) : Host.Outcome State Fault Refusal :=
  match s.rx with
  | [] => .next s
  | .eof :: rest => .next (raise (.framing .streamClosed) (popRx rest s))
  | .timeout :: rest => .next (raise .timeout (popRx rest s))
  | .ioErr :: rest => .next (raise (.transport .read) (popRx rest s))
  | .byte b :: rest =>
    match symbolOfByte s.cfg s.rxEsc b with
    | none => .next (setEsc (popRx rest s))
    | some i => exec i (popRx rest s)

/-- `PARSE_RESPONSE(rx_buf)` (41_message_protocol.md R171): the payload is a response row, which is executed,
or an error, which is raised. -/
def parseStep (s : State) : Host.Outcome State Fault Refusal :=
  match decodeResponse s.cfg s.outOp s.outShape s.rxBuf with
  | .ok i => exec i s
  | .error kind => .next (raise kind s)

/-- One R6 step of the engine, by phase. A message that was only encoded (R162) is taken up by nothing: the
microprogram step begins again (log entry 19). -/
def runPhase (s : State) : Host.Outcome State Fault Refusal :=
  match s.phase with
  | .enter => .next (enterStep s)
  | .send r => exec r.toInstr s
  | .write r => exec r.toInstr s
  | .flush r => exec r.toInstr s
  | .encoded _ => .next (setPhase .enter s)
  | .sent frag => .next (fragDone frag s)
  | .stream => streamStep s
  | .recv => recvStep s
  | .parse => parseStep s
  | .finish => .next (finishStep s)

/-! ## Placing one item where the engine comes by its next instruction -/

/-- The request of a table row. -/
def requestOf : Instr → Option Request
  | .getProtocolVersion => some .getProtocolVersion
  | .getHardwareVersion => some .getHardwareVersion
  | .selectObject k => some (.selectObject k)
  | .createObject k n => some (.createObject k n)
  | .setReceiptNotification n => some (.setReceiptNotification n)
  | .getMtu => some .getMtu
  | .writeChunk d => some (.writeChunk d)
  | .getCrc => some .getCrc
  | .execute => some .execute
  | .rspGetProtocolVersion _ => none
  | .rspGetHardwareVersion _ _ _ _ _ => none
  | .rspSelectObject _ _ _ => none
  | .rspCreateObject => none
  | .rspSetReceiptNotification => none
  | .rspGetMtu _ => none
  | .rspWriteChunk => none
  | .rspGetCrc _ _ => none
  | .rspExecute => none
  | .rspRejected _ _ => none
  | .frameEnd => none
  | .frameEscEnd => none
  | .frameEscEsc => none
  | .frameLiteral _ => none
  | .frameBadEscape _ => none

/-- A message is placed as the request in hand (the engine decodes no message, R170). -/
def placeMessage (bytes : Bytes) (s : State) : State :=
  match decodeRequest s.cfg bytes with
  | .ok i =>
    match requestOf i with
    | some r => begin r s
    | none => s
  | .error _ => s

/-- An envelope is placed as the decoded payload of the answer to the request it echoes. -/
def placeEnvelope (op : Byte) (shape : Shape) (bytes : Bytes) (s : State) : State :=
  { s with rxBuf := bytes, outOp := op, outShape := shape, awaiting := true, phase := .parse }

/-- A frame symbol is placed at the head of `RX`; of a pair, the `ESC` has been read already (R92, R138). -/
def placeSymbol (bytes : Bytes) (s : State) : State :=
  match bytes with
  | [] => s
  | [b] => { s with rx := .byte b :: s.rx, rxEsc := false, phase := .recv }
  | _ :: x :: _ => { s with rx := .byte x :: s.rx, rxEsc := true, phase := .recv }

/-- An item of the opcode table is placed where its layer is fetched; a halted machine is put back to M0,
since it would fetch nothing (R266). -/
def placeItem (layer : Layer) (bytes : Bytes) (s : State) : State :=
  let t := if halted s then { s with upc := .m0 } else s
  match layer with
  | .message => placeMessage bytes t
  | .envelope op shape => placeEnvelope op shape bytes t
  | .symbol => placeSymbol bytes t

end Sys2Proof.Machine
end

