-- ==== Sys2Proof/Machine/Step.lean ====
section
/-! DEFINITION. One step of the engine (00_scope.md R6) and the placing of one table item for the next step. -/

namespace Sys2Proof.Machine

/-- A halted engine performs no action (44_session_sequencer.md R266); a running one does what its phase
says. -/
def step (s : State) : Host.Outcome State Fault Refusal :=
  if halted s then .next s else runPhase s

/-- `s` with the table item whose first `nbits` bits are `w` (every later bit 0) placed where the next step
fetches: a message as the request in hand, an envelope as the payload to parse, a frame symbol at the
head of `RX` (log entry 16). -/
def State.withFetchWord (s : State) (nbits w : Nat) : State :=
  placeItem (layerOfBytes s.cfg (itemOfWord s.cfg nbits w)) (itemOfWord s.cfg nbits w) s

end Sys2Proof.Machine
end

