-- ==== Sys2Proof/Safety.lean ====
section
/-! DEFINITION. What a healthy session looks like: the invariants of 10_state.md and 44_session_sequencer.md
over the machine's state, the successor relation of `upc`, the greedy split of a stream, and the parts
of the response that the sequencer never reads. Claims are stated in these terms. -/

namespace Sys2Proof.Machine

/-! ## Control: `upc`, `seq` and the phase -/

/-- The phases of an exchange of `r`. -/
def exchangePhase (r : Request) (p : Phase) : Prop :=
  p = .enter ∨ p = .send r ∨ p = .write r ∨ p = .flush r ∨ p = .recv ∨ p = .parse ∨ p = .finish

/-- The phases of a step that streams. -/
def streamPhase (p : Phase) : Prop :=
  p = .enter ∨ p = .stream ∨
    ∃ d, p = .send (.writeChunk d) ∨ p = .write (.writeChunk d) ∨ p = .flush (.writeChunk d) ∨ p = .sent d

/-- Which phases a step goes through: M6 and M11 stream, M0 and M14 only begin, every other step exchanges
its own request (R250). -/
def phaseFits (s : State) : Prop :=
  match s.upc with
  | .m6 => streamPhase s.phase
  | .m11 => streamPhase s.phase
  | .m0 => s.phase = .enter
  | .m14 => s.phase = .enter
  | .mf => True
  | _ => ∃ r, stepRequest s = some r ∧ exchangePhase r s.phase

/-- `seq` while a step runs (the table of R250, R275). A streaming step still shows the step before it until
its own transfers have been made. -/
def seqFits (s : State) : Prop :=
  match s.upc with
  | .m0 => s.seq = .idle
  | .m1 => s.seq = .connecting
  | .m2 => s.seq = .connecting
  | .m3 => s.seq = .connecting
  | .m4 => s.seq = .negotiated
  | .m5 => s.seq = .datSelected
  | .m6 => s.seq = if s.phase = .enter then .datCreated else .datStreaming
  | .m7 => s.seq = .datStreaming
  | .m8 => s.seq = .datCrcChecked
  | .m9 => s.seq = .datExecuted
  | .m10 => s.seq = .binSelected ∨ s.seq = .binExecuted
  | .m11 => s.seq = if s.phase = .enter then .binCreated else .binStreaming
  | .m12 => s.seq = .binStreaming
  | .m13 => s.seq = .binCrcChecked
  | .m14 => s.seq = .done
  | .mf => s.seq = .failed

/-- Control is in order: `seq` and the phase are those of the step, and `err_valid` says whether the session
has failed (R35, R250, R316). -/
structure ControlInv (s : State) : Prop where
  seq : seqFits s
  phase : phaseFits s
  err : s.errValid = true ↔ s.upc = .mf

/-- The phases in which a request's SEND begins: neither its write nor its flush is under way. -/
def notSending (s : State) : Prop :=
  (∀ r, s.phase ≠ .write r) ∧ (∀ r, s.phase ≠ .flush r)

/-! ## The exchange: one request outstanding (R32, R360) -/

/-- While the session lives, `awaiting` is 1 exactly inside RECV, and what is awaited is the answer to the
step's own request. -/
structure ExchangeInv (s : State) : Prop where
  awaiting : s.upc ≠ .mf → (s.awaiting = true ↔ (s.phase = .recv ∨ s.phase = .parse))
  outstanding : s.upc ≠ .mf → s.phase = .recv ∨ s.phase = .parse →
    ∃ r, stepRequest s = some r ∧ s.outOp = opcodeOf s.cfg r ∧ s.outShape = shapeFor r

/-! ## Data: lengths, chunks, fragments -/

/-- The fragment in hand, if the phase holds one. -/
def fragInHand (s : State) : Option Bytes :=
  match s.phase with
  | .send (.writeChunk d) => some d
  | .write (.writeChunk d) => some d
  | .flush (.writeChunk d) => some d
  | .sent d => some d
  | _ => none

/-- The streaming registers describe a stream of `len` bytes of `space` from `base` (R27, R268). -/
structure StreamInv (space : Space) (base len : U32) (s : State) : Prop where
  spaceEq : s.strSpace = space
  baseEq : s.strBase = base
  lenEq : s.strLen = len
  fragMax : s.fragMax = fragMaxOf s.mtu
  progress : 1 ≤ s.fragMax
  ptr : s.strPtr.toNat ≤ s.strLen.toNat
  frag : ∀ d ∈ fragInHand s, s.strPtr.toNat < s.strLen.toNat ∧
    memRead s space (s.strBase.toNat + s.strPtr.toNat) (fragLengthOf s) = some d

/-- The steps of one firmware chunk with its length latched (R26). -/
def inChunk (s : State) : Prop :=
  (s.upc = .m10 ∧ s.phase ≠ .enter) ∨ s.upc = .m11 ∨ s.upc = .m12 ∨ s.upc = .m13

/-- The steps of the firmware transfer after the Data select (R261). -/
def inFirmware (s : State) : Prop :=
  s.upc = .m10 ∨ s.upc = .m11 ∨ s.upc = .m12 ∨ s.upc = .m13

/-- Lengths, chunk and stream registers are in range (R25, R26, R27, R30, R63). -/
structure DataInv (s : State) : Prop where
  /-- The constraint of R9 on `PAD_ALIGN`. -/
  align : 0 < s.cfg.padAlign
  rxCap : ∀ n ∈ s.cfg.rxCap, s.rxBuf.length ≤ n
  memory : s.upc ≠ .m0 → s.upc ≠ .mf →
    s.initMem.length = s.initLen.toNat ∧ s.fwMem.length = s.fwLen.toNat ∧
      s.fwPlen.toNat = paddedLength s.cfg s.fwMem.length
  firmware : inFirmware s → s.maxSize ≠ 0 ∧ s.fwOff.toNat ≤ s.fwPlen.toNat
  chunk : inChunk s → s.chunkLen = chunkLengthOf s ∧ s.fwOff.toNat < s.fwPlen.toNat
  dat : s.upc = .m6 → s.phase ≠ .enter → StreamInv .initMem 0 s.initLen s
  bin : s.upc = .m11 → s.phase ≠ .enter → StreamInv .fwpad s.fwOff s.chunkLen s

/-- The three lengths of a `Start` fit their registers (R251). -/
def StartCmd.fits (c : Config) (cmd : StartCmd) : Prop :=
  cmd.initBytes.length < 2 ^ 32 ∧ cmd.fwBytes.length < 2 ^ 32 ∧
    paddedLength c cmd.fwBytes.length < 2 ^ 32

/-! ## The CRC accumulator covers exactly the bytes streamed (R237, R259, R264) -/

/-- What `crc_acc` is at each step that can read it. -/
structure CrcInv (s : State) : Prop where
  dat : s.upc = .m6 → s.phase ≠ .enter →
    s.crcAcc = crc32 s.cfg (s.initMem.take s.strPtr.toNat) 0
  datDone : s.upc = .m7 → s.crcAcc = crc32 s.cfg s.initMem 0
  chunkStart : s.upc = .m10 ∨ (s.upc = .m11 ∧ s.phase = .enter) →
    s.crcAcc = crc32 s.cfg ((fwpad s).take s.fwOff.toNat) 0
  chunk : s.upc = .m11 → s.phase ≠ .enter →
    s.crcAcc = crc32 s.cfg ((fwpad s).take (s.fwOff.toNat + s.strPtr.toNat)) 0
  chunkDone : s.upc = .m12 ∨ s.upc = .m13 →
    s.crcAcc = crc32 s.cfg ((fwpad s).take (s.fwOff.toNat + s.chunkLen.toNat)) 0

/-- A session in order. -/
structure SessionInv (s : State) : Prop where
  control : ControlInv s
  exchange : ExchangeInv s
  data : DataInv s
  crc : CrcInv s

/-! ## Control flow (R274) -/

/-- The successor relation of `upc` on success. -/
def successor : Upc → Upc → Bool
  | .m0, .m1 => true
  | .m1, .m2 => true
  | .m2, .m3 => true
  | .m3, .m4 => true
  | .m4, .m5 => true
  | .m5, .m6 => true
  | .m6, .m7 => true
  | .m7, .m8 => true
  | .m8, .m9 => true
  | .m9, .m10 => true
  | .m10, .m14 => true
  | .m10, .m11 => true
  | .m11, .m12 => true
  | .m12, .m13 => true
  | .m13, .m10 => true
  | _, _ => false

/-! ## The split of a stream into fragments (R268) -/

/-- The fragments of at most `k` bytes, greedy, in order; `fuel` bounds their number. -/
def fragmentsUpTo (k : Nat) : Nat → Bytes → List Bytes
  | 0, _ => []
  | fuel + 1, d => if d = [] then [] else d.take k :: fragmentsUpTo k fuel (d.drop k)

/-- All fragments of `d`: for `k ≥ 1` there are no more than its bytes. -/
def fragments (k : Nat) (d : Bytes) : List Bytes := fragmentsUpTo k d.length d

/-- What one sent request leaves in `TX_LOG`: its frame, then a flush (R211). -/
def sentMarks (c : Config) (r : Request) : List TxMark :=
  (frame c (encReq c r)).map TxMark.byte ++ [.flushed]

/-- `n` steps of the machine. -/
abbrev run (n : Nat) (s : State) : Host.Outcome State Fault Refusal := Host.Core.run Sys2Proof.core n s

/-! ## What the sequencer never reads (R267) -/

/-- `rsp` without `rsp.hw`, `rsp.sel.offset`, `rsp.sel.crc` and `rsp.crc.offset`. -/
def hideUnread (s : State) : State :=
  { s with
    rsp :=
      { s.rsp with
        hw := Rsp.reset.hw, sel := { s.rsp.sel with offset := 0, crc := 0 },
        crc := { s.rsp.crc with offset := 0 } } }

/-- The outcome of a step, with a function applied to the next state. -/
def mapNext (f : State → State) : Host.Outcome State Fault Refusal → Host.Outcome State Fault Refusal
  | .next s => .next (f s)
  | .fault r => .fault r
  | .refused r => .refused r

end Sys2Proof.Machine
end

