-- ==== Sys2Proof/Certificates/Slice0/Obligations.lean ====
section
/-! DEFINITION. The statements for the provers: what the spec's numbered rules say the engine does. Statements
are over every configuration; the wire numbers of the defaults appear in none but the sample words. The
phases they speak of are the model's own field (log entry 4: one R6 step of a microprogram step), and the
stream's answers are the scripts `rx` and `tx` (log entry 5). -/

open Sys2Proof Sys2Proof.Machine

/-! ## Reset and configuration -/

/-- R350, with the values of R40: a new Session's control and flag registers, and the step that waits. It waits
because the model's new Session drops a pending Start (log entry 14) and executes nothing of its own (log
entry 16). -/
def Obligations.NewSessionIsIdleAtM0 : Prop :=
  ∀ s : State,
    (newSession s).seq = .idle ∧ (newSession s).upc = .m0 ∧ (newSession s).errValid = false ∧
    (newSession s).awaiting = false ∧ (newSession s).rxEsc = false ∧ (newSession s).txBuf = [] ∧
    (newSession s).rxBuf = [] ∧ step (newSession s) = .next (newSession s)

/-- R351: reset touches neither the stream, nor the ready line, nor the parameters. (What the model's new Session
does with the input buffers and a pending command is log entry 14 and not stated here.) -/
def Obligations.NewSessionLeavesStreamAlone : Prop :=
  ∀ s : State,
    (newSession s).rx = s.rx ∧ (newSession s).tx = s.tx ∧ (newSession s).txLog = s.txLog ∧
    (newSession s).ready = s.ready ∧ (newSession s).cfg = s.cfg

/-- R10: a configuration that breaks a constraint of the framing bytes is refused; one that meets every
constraint starts in the reset state. -/
def Obligations.BadFramingBytesAreRefused : Prop :=
  ∀ c : Config,
    (c.endByte = c.escByte ∨ c.subEnd = c.subEsc ∨ c.subEnd = c.endByte ∨ c.subEsc = c.endByte →
      boot c = none) ∧
    (c.Ok → boot c = some (State.resetWith c))

/-! ## Encodings -/

/-- Decode and encode agree on every well-formed item, every operand at every value. -/
def Obligations.DecodeOfEncodeIsIdentity : Prop :=
  ∀ (c : Config) (i : Instr), c.Ok → c.shapeLen = ShapeLens.layout → i.wf c = true →
    decode c (layerOf c i) (encode c i) = .ok i

/-- R170: no two requests share a message. -/
def Obligations.RequestMessagesAreInjective : Prop :=
  ∀ (c : Config) (r r' : Request), c.requestOpcodes.Nodup → c.kindCommand ≠ c.kindData →
    encReq c r = encReq c r' → r = r'

/-- R92, R133 (a): the exact length of a frame and its bounds. -/
def Obligations.FrameLengthCountsEscapes : Prop :=
  ∀ (c : Config) (p : Bytes),
    (frame c p).length =
      p.length + p.countP (fun b => decide (b = c.endByte) || decide (b = c.escByte)) + 1 ∧
    p.length + 1 ≤ (frame c p).length ∧ (frame c p).length ≤ 2 * p.length + 1

/-- R93, R133 (b): the terminator occurs at the end and nowhere before. -/
def Obligations.TerminatorOccursOnlyAtFrameEnd : Prop :=
  ∀ (c : Config) (p : Bytes), c.framingOk →
    ∃ body, frame c p = body ++ [c.endByte] ∧ c.endByte ∉ body

/-- R133 (c). -/
def Obligations.FrameIsInjective : Prop :=
  ∀ (c : Config) (p q : Bytes), c.framingOk → frame c p = frame c q → p = q

/-- R132: the byte-serial encoder emits the frame of R131 after what the buffer held. -/
def Obligations.SerialEncoderEmitsFrame : Prop :=
  ∀ (c : Config) (p out : Bytes), encodeSerial c p out = out ++ frame c p

/-- A few items of the formats under the defaults, as numbers whose bit 0 is the least significant bit of the
first byte: GetMtu, CreateObject(Data, 0x12345678) (vector RQ9), the answer Mtu(64) (RS2), the pair DB DC,
the terminator. That a lone item's first byte chooses its format, so that 07 is GetMtu and not the literal
symbol 07, is the model's choice (log entry 15). -/
def Obligations.SampleWordsDecode : Prop :=
  decodeTableWord 8 0x07 = some .getMtu ∧
  decodeTableWord 48 0x123456780201 = some (.createObject .data 0x12345678) ∧
  decodeTableWord 40 0x0040010760 = some (.rspGetMtu 64) ∧
  decodeTableWord 16 0xDCDB = some .frameEscEnd ∧
  decodeTableWord 8 0xC0 = some .frameEnd

/-! ## CRC -/

/-- R234: any sequence that starts at the seed and takes one `crc_step` per byte ends at `CRC32(data, s)`. -/
def Obligations.CrcIsIteratedStep : Prop :=
  ∀ (c : Config) (data : Bytes) (s : U32) (d : Nat → U32), d 0 = s →
    (∀ (i : Nat) (h : i < data.length), d (i + 1) = crcStep c (d i) data[i]) →
    crc32 c data s = d data.length

/-- R235: the byte-serial accumulator computes `CRC32` and touches no other register. -/
def Obligations.SerialCrcComputesCrc32 : Prop :=
  ∀ (s : State) (v : U32) (data : Bytes),
    crcBytes data (crcLoad v s) = { s with crcAcc := crc32 s.cfg data v }

/-- The default CRC of R233 tells apart any two buffers that differ in one byte, under any seed. -/
def Obligations.OneByteChangeChangesCrc : Prop :=
  ∀ (c : Config) (pre post : Bytes) (b b' : Byte) (s : U32), c.crc = .ieee → b ≠ b' →
    crc32 c (pre ++ b :: post) s ≠ crc32 c (pre ++ b' :: post) s

/-! ## Requests -/

/-- R211 (first three lines) with the messages of R161 to R169: each of the eight requests that are sent puts
the frame of its message into `tx_buf`, whatever that held, and nothing else changes but the phase; and
GetHardwareVersion, which R162 exposes as its encoding only, writes no register in any state: its message
is in hand in the phase. That a request executed in any phase but its own write or flush is encoded is the
model's choice (log entry 19). -/
def Obligations.RequestsFillScratchBuffer : Prop :=
  ∀ s : State,
    exec .getHardwareVersion s = .next { s with phase := .encoded [s.cfg.opHwVersion] } ∧
    (notSending s →
    exec .getProtocolVersion s =
      .next { s with txBuf := frame s.cfg [s.cfg.opProtocolVersion], phase := .write .getProtocolVersion } ∧
    exec (.selectObject .command) s =
      .next { s with
        txBuf := frame s.cfg [s.cfg.opSelect, s.cfg.kindCommand], phase := .write (.selectObject .command) } ∧
    exec (.selectObject .data) s =
      .next { s with
        txBuf := frame s.cfg [s.cfg.opSelect, s.cfg.kindData], phase := .write (.selectObject .data) } ∧
    (∀ n : U32, exec (.createObject .command n) s =
      .next { s with
        txBuf := frame s.cfg ([s.cfg.opCreate, s.cfg.kindCommand] ++ le32 n),
        phase := .write (.createObject .command n) }) ∧
    (∀ n : U32, exec (.createObject .data n) s =
      .next { s with
        txBuf := frame s.cfg ([s.cfg.opCreate, s.cfg.kindData] ++ le32 n),
        phase := .write (.createObject .data n) }) ∧
    (∀ n : U16, exec (.setReceiptNotification n) s =
      .next { s with
        txBuf := frame s.cfg ([s.cfg.opSetPrn] ++ le16 n), phase := .write (.setReceiptNotification n) }) ∧
    exec .getMtu s = .next { s with txBuf := frame s.cfg [s.cfg.opGetMtu], phase := .write .getMtu } ∧
    (∀ d : Bytes, exec (.writeChunk d) s =
      .next { s with txBuf := frame s.cfg (s.cfg.opWrite :: d), phase := .write (.writeChunk d) }) ∧
    exec .getCrc s = .next { s with txBuf := frame s.cfg [s.cfg.opGetCrc], phase := .write .getCrc } ∧
    exec .execute s = .next { s with txBuf := frame s.cfg [s.cfg.opExecute], phase := .write .execute })

/-- R211, `TxWrite`: every request but GetHardwareVersion (R162), once framed, puts the whole of `tx_buf` on the
wire in order; nothing else changes but the phase. A failing write leaves the prefix the environment says
(U6, log entry 6) and aborts. -/
def Obligations.FramedRequestIsWritten : Prop :=
  ∀ (s : State) (r : Request), s.phase = .write r → r ≠ .getHardwareVersion →
    (∀ rest, s.tx = .ok :: rest →
      exec r.toInstr s =
        .next { s with tx := rest, txLog := s.txLog ++ s.txBuf.map TxMark.byte, phase := .flush r }) ∧
    (∀ n rest, s.tx = .ioErr n :: rest →
      exec r.toInstr s =
        .next (raise (.transport .write)
          { s with tx := rest, txLog := s.txLog ++ (s.txBuf.take n).map TxMark.byte }))

/-- R214, R136: once flushed, each of the seven awaited requests of R96 is recorded as outstanding and the
decoder starts on an empty buffer. WriteChunk awaits nothing (R167) and GetHardwareVersion is never sent
(R162). -/
def Obligations.FlushedRequestIsAwaited : Prop :=
  ∀ (s : State) (r : Request) (rest : List TxResult), s.phase = .flush r → s.tx = .ok :: rest →
    (∀ d, r ≠ .writeChunk d) → r ≠ .getHardwareVersion →
    exec r.toInstr s =
      .next { s with
        tx := rest, txLog := s.txLog ++ [.flushed], outOp := opcodeOf s.cfg r, outShape := shapeFor r,
        awaiting := true, rxBuf := [], rxEsc := false, phase := .recv }

/-- R268: once flushed, a WriteChunk awaits nothing. -/
def Obligations.FlushedChunkIsNotAwaited : Prop :=
  ∀ (s : State) (d : Bytes) (rest : List TxResult), s.phase = .flush (.writeChunk d) →
    s.tx = .ok :: rest →
    exec (.writeChunk d) s =
      .next { s with tx := rest, txLog := s.txLog ++ [.flushed], phase := .sent d }

/-- R303, R214: a failing flush aborts every request that is sent and leaves `awaiting` alone. The mark in the
log is the model's (log entry 7). -/
def Obligations.FailedFlushAborts : Prop :=
  ∀ (s : State) (r : Request) (n : Nat) (rest : List TxResult), s.phase = .flush r →
    r ≠ .getHardwareVersion → s.tx = .ioErr n :: rest →
    exec r.toInstr s =
      .next (raise (.transport .flush) { s with tx := rest, txLog := s.txLog ++ [.flushFailed] })

/-- R217, R374: while the stream has not answered, the engine is blocked; in the model its step answers the same
state (log entry 5). -/
def Obligations.SilentStreamBlocks : Prop :=
  ∀ s : State,
    (s.phase = .recv ∧ s.rx = []) ∨
      (∃ r, r ≠ .getHardwareVersion ∧ (s.phase = .write r ∨ s.phase = .flush r) ∧ s.tx = []) →
    step s = .next s

/-! ## Responses -/

/-- R181 to R186, R33, R214: each Success response writes the members of its own shape and no other, and
ends the wait. -/
def Obligations.ResponsesWriteTheirMembers : Prop :=
  ∀ s : State,
    (∀ v, exec (.rspGetProtocolVersion v) s =
      .next { s with rsp := { s.rsp with version := v }, awaiting := false, phase := .finish }) ∧
    (∀ p v ro ra pg, exec (.rspGetHardwareVersion p v ro ra pg) s =
      .next { s with
        rsp := { s.rsp with hw := ⟨p, v, ro, ra, pg⟩ }, awaiting := false, phase := .finish }) ∧
    (∀ m o k, exec (.rspSelectObject m o k) s =
      .next { s with rsp := { s.rsp with sel := ⟨m, o, k⟩ }, awaiting := false, phase := .finish }) ∧
    (∀ m, exec (.rspGetMtu m) s =
      .next { s with rsp := { s.rsp with mtu := m }, awaiting := false, phase := .finish }) ∧
    (∀ o k, exec (.rspGetCrc o k) s =
      .next { s with rsp := { s.rsp with crc := ⟨o, k⟩ }, awaiting := false, phase := .finish }) ∧
    exec .rspCreateObject s = .next { s with awaiting := false, phase := .finish } ∧
    exec .rspSetReceiptNotification s = .next { s with awaiting := false, phase := .finish } ∧
    exec .rspWriteChunk s = .next { s with awaiting := false, phase := .finish } ∧
    exec .rspExecute s = .next { s with awaiting := false, phase := .finish }

/-- R178, R307, R312: a rejection aborts with the raw code and its name, and writes nothing else. -/
def Obligations.RejectedResponseAborts : Prop :=
  ∀ (s : State) (echo raw : Byte),
    exec (.rspRejected echo raw) s =
      .next { s with
        err := { kind := .deviceRejection raw (s.cfg.resName raw), step := s.upc }, errValid := true,
        seq := .failed, upc := .mf }

/-- R175 to R180 in the order of R308 (4): what `PARSE_RESPONSE` does with every payload of a response that
is due. -/
def Obligations.EnvelopeChecksInOrder : Prop :=
  ∀ s : State, s.phase = .parse → halted s = false →
    (s.rxBuf = [] → step s = .next (raise (.malformedResponse (.shortEnvelope 0)) s)) ∧
    (∀ p0 t, s.rxBuf = p0 :: t → p0 ≠ s.cfg.opResponse →
      step s = .next (raise (.protocolDesync (.badResponseOpcode p0)) s)) ∧
    (s.rxBuf = [s.cfg.opResponse] → step s = .next (raise (.malformedResponse (.shortEnvelope 1)) s)) ∧
    (∀ p1 t, s.rxBuf = s.cfg.opResponse :: p1 :: t → p1 ≠ s.outOp →
      step s = .next (raise (.protocolDesync (.echoMismatch s.outOp p1)) s)) ∧
    (s.rxBuf = [s.cfg.opResponse, s.outOp] →
      step s = .next (raise (.malformedResponse (.shortEnvelope 2)) s)) ∧
    (∀ p2 t, s.rxBuf = s.cfg.opResponse :: s.outOp :: p2 :: t → p2 ≠ s.cfg.resSuccess →
      step s = .next (raise (.deviceRejection p2 (s.cfg.resName p2)) s)) ∧
    (∀ body, s.rxBuf = s.cfg.opResponse :: s.outOp :: s.cfg.resSuccess :: body →
      (body.length < s.cfg.shapeLenOf s.outShape →
        step s = .next (raise (.malformedResponse (.shortBody s.outShape body.length)) s)) ∧
      (s.cfg.strictLength = true → s.cfg.shapeLenOf s.outShape < body.length →
        step s = .next (raise (.malformedResponse (.longBody s.outShape body.length)) s)) ∧
      (s.cfg.shapeLenOf s.outShape ≤ body.length →
        (s.cfg.strictLength = true → body.length = s.cfg.shapeLenOf s.outShape) →
        step s = exec (decodeShape s.cfg s.outOp s.outShape body) s))

/-! ## Frame symbols and the decoder -/

/-- R137, R139, R140: the terminator ends the frame; a literal is appended; a pair appends the byte it stands
for and clears `rx_esc`; a bad escape aborts with the offending byte. Nothing else changes. -/
def Obligations.FrameSymbolsBuildPayload : Prop :=
  ∀ s : State,
    exec .frameEnd s = .next { s with phase := .parse } ∧
    (∀ x, exec (.frameBadEscape x) s =
      .next { s with
        err := { kind := .framing (.badEscape x), step := s.upc }, errValid := true, seq := .failed,
        upc := .mf }) ∧
    ((∀ n ∈ s.cfg.rxCap, s.rxBuf.length < n) →
      (∀ b, exec (.frameLiteral b) s = .next { s with rxBuf := s.rxBuf ++ [b] }) ∧
      exec .frameEscEnd s = .next { s with rxBuf := s.rxBuf ++ [s.cfg.endByte], rxEsc := false } ∧
      exec .frameEscEsc s = .next { s with rxBuf := s.rxBuf ++ [s.cfg.escByte], rxEsc := false })

/-- R142: a full buffer raises instead of appending. -/
def Obligations.FullReceiveBufferAborts : Prop :=
  ∀ (s : State) (n : Nat) (i : Instr), s.cfg.rxCap = some n → n ≤ s.rxBuf.length →
    (i = .frameEscEnd ∨ i = .frameEscEsc ∨ ∃ b, i = .frameLiteral b) →
    exec i s = .next (raise (.framing .overflow) s)

/-- R141: an end event aborts at any point of the loop, consumes no other event (the events are the script of log
entry 5), and leaves `rx_buf` and `rx_esc` as they were. -/
def Obligations.EndEventsAbortReceive : Prop :=
  ∀ s : State, s.phase = .recv → halted s = false →
    (∀ rest, s.rx = .eof :: rest →
      step s = .next (raise (.framing .streamClosed) { s with rx := rest })) ∧
    (∀ rest, s.rx = .timeout :: rest → step s = .next (raise .timeout { s with rx := rest })) ∧
    (∀ rest, s.rx = .ioErr :: rest →
      step s = .next (raise (.transport .read) { s with rx := rest }))

/-- A step runs the decoded instruction. A request in hand is executed in each of the phases of its SEND; a
received byte that completes a frame symbol executes that symbol, after being consumed; the `ESC` that
opens a pair is consumed and sets `rx_esc` (R138); a payload that is a response row executes that row. -/
def Obligations.StepRunsDecodedInstruction : Prop :=
  ∀ s : State, halted s = false →
    (∀ r, s.phase = .send r ∨ s.phase = .write r ∨ s.phase = .flush r → step s = exec r.toInstr s) ∧
    (∀ b rest i, s.phase = .recv → s.rx = .byte b :: rest → s.rxEsc = false →
      decode s.cfg .symbol [b] = .ok i → step s = exec i { s with rx := rest }) ∧
    (∀ b rest i, s.phase = .recv → s.rx = .byte b :: rest → s.rxEsc = true →
      decode s.cfg .symbol [s.cfg.escByte, b] = .ok i → step s = exec i { s with rx := rest }) ∧
    (∀ rest, s.phase = .recv → s.rx = .byte s.cfg.escByte :: rest → s.rxEsc = false →
      s.cfg.escByte ≠ s.cfg.endByte → step s = .next { s with rx := rest, rxEsc := true }) ∧
    (∀ i, s.phase = .parse → decode s.cfg (.envelope s.outOp s.outShape) s.rxBuf = .ok i →
      step s = exec i s)

/-- R143, first half, on the machine: fed the frame of a payload, the decoder ends with that payload and has
consumed exactly the frame. -/
def Obligations.DecoderRecoversFramedPayload : Prop :=
  ∀ (s : State) (p : Bytes) (rest : List RxEvent), s.phase = .recv → halted s = false →
    s.rxBuf = [] → s.rxEsc = false → s.cfg.framingOk → (∀ n ∈ s.cfg.rxCap, p.length ≤ n) →
    s.rx = (frame s.cfg p).map RxEvent.byte ++ rest →
    run (frame s.cfg p).length s = .next { s with rx := rest, rxBuf := p, phase := .parse }

/-- R143, second half, on the machine: what the decoder accepts is the frame of the payload it returns. -/
def Obligations.DecoderAcceptsOnlyFrames : Prop :=
  ∀ (s t : State) (n : Nat), s.phase = .recv → halted s = false → s.rxBuf = [] → s.rxEsc = false →
    s.cfg.framingOk → run n s = .next t → t.phase = .parse →
    (∀ k u, k < n → run k s = .next u → u.phase = .recv) →
    s.rx = (frame s.cfg t.rxBuf).map RxEvent.byte ++ t.rx

/-! ## The abort -/

/-- R312: what a raise writes, and nothing else; after it the engine performs no action. -/
def Obligations.AbortWritesFourRegisters : Prop :=
  ∀ (kind : ErrKind) (s : State),
    raise kind s =
      { s with err := { kind := kind, step := s.upc }, errValid := true, seq := .failed, upc := .mf } ∧
    step (raise kind s) = .next (raise kind s)

/-- R301: the code a host reads, 0 before an abort and the kind's number after it. -/
def Obligations.ErrorCodesFollowTable : Prop :=
  ∀ s : State,
    (s.errValid = false → errCode s = 0) ∧ errCode (raise .deviceDiscovery s) = 1 ∧
    (∀ k, errCode (raise (.transport k) s) = 2) ∧ errCode (raise .timeout s) = 3 ∧
    (∀ k, errCode (raise (.framing k) s) = 4) ∧ (∀ k, errCode (raise (.protocolDesync k) s) = 5) ∧
    (∀ raw name, errCode (raise (.deviceRejection raw name) s) = 6) ∧
    (∀ e r, errCode (raise (.integrity e r) s) = 7) ∧
    (∀ v, errCode (raise (.versionMismatch v) s) = 8) ∧ errCode (raise .packageFormat s) = 9 ∧
    (∀ k, errCode (raise (.malformedResponse k) s) = 10) ∧
    (∀ k, errCode (raise (.modelFault k) s) = 11)

/-- R313, R312: every step that fails a running session records the step it failed in and leaves `mtu`,
`fw_off`, `tx_buf`, `rx_buf`, `rx_esc`, `awaiting`, `out_op`, `out_shape` and `rsp` as they were; `max_size` and
`crc_acc` too, but for what the failing step stored before its raise: the 0 that M9 rejects (R261) and the
0 that M6 loads before STREAM (R258). -/
def Obligations.FailingStepIsPrecise : Prop :=
  ∀ s t : State, step s = .next t → s.upc ≠ .mf → t.upc = .mf →
    t.errValid = true ∧ t.seq = .failed ∧ t.err.step = s.upc ∧ t.mtu = s.mtu ∧ t.fwOff = s.fwOff ∧
    t.rxBuf = s.rxBuf ∧ t.rxEsc = s.rxEsc ∧ t.awaiting = s.awaiting ∧ t.outOp = s.outOp ∧
    t.outShape = s.outShape ∧ t.rsp = s.rsp ∧ t.txBuf = s.txBuf ∧
    (t.maxSize = s.maxSize ∨ (s.upc = .m9 ∧ s.phase = .finish ∧ t.maxSize = 0)) ∧
    (t.crcAcc = s.crcAcc ∨ (s.upc = .m6 ∧ s.phase = .enter ∧ t.crcAcc = 0))

/-- R266: the halt states. -/
def Obligations.HaltedEngineDoesNothing : Prop :=
  ∀ s : State, s.upc = .m14 ∨ s.upc = .mf →
    step s = .next s ∧ ∀ initBytes fwBytes, hostStart initBytes fwBytes s = s

/-! ## The sequencer -/

/-- R251, R252: M0 accepts a `Start`, latches it and checks the lengths; a `Start` elsewhere is ignored (how a
command is held until it is taken is the model's, log entry 14; the check uses the padded length of R252,
log entry 21). -/
def Obligations.StartIsTakenAtM0 : Prop :=
  ∀ (s : State) (i f : Bytes), 0 < s.cfg.padAlign →
    (s.upc ≠ .m0 → hostStart i f s = s) ∧
    (s.upc = .m0 → s.cmd = none →
      hostStart i f s = { s with cmd := some { initBytes := i, fwBytes := f } }) ∧
    (s.upc = .m0 → s.phase = .enter → s.cmd = none → step s = .next s) ∧
    (s.upc = .m0 → s.phase = .enter → s.cmd = some { initBytes := i, fwBytes := f } →
      (i.length < 2 ^ 32 → (f.length + s.cfg.padAlign - 1) / s.cfg.padAlign * s.cfg.padAlign < 2 ^ 32 →
        step s = .next { s with
          cmd := none, initMem := i, fwMem := f, initLen := BitVec.ofNat 32 i.length,
          fwLen := BitVec.ofNat 32 f.length,
          fwPlen := BitVec.ofNat 32
            ((f.length + s.cfg.padAlign - 1) / s.cfg.padAlign * s.cfg.padAlign),
          seq := .connecting, upc := .m1 }) ∧
      (2 ^ 32 ≤ i.length ∨
          2 ^ 32 ≤ (f.length + s.cfg.padAlign - 1) / s.cfg.padAlign * s.cfg.padAlign →
        ∃ t, step s = .next t ∧ t.upc = .mf ∧ t.seq = .failed ∧ t.errValid = true ∧
          t.err = { kind := .modelFault .lengthTooLarge, step := .m0 } ∧ t.txLog = s.txLog))

/-- Every step that exchanges turns to its own request, with its operands (the table of R250). -/
def Obligations.StepsTurnToTheirRequests : Prop :=
  ∀ s : State, s.phase = .enter →
    (s.upc = .m1 → step s = .next { s with phase := .send .getProtocolVersion }) ∧
    (s.upc = .m2 → step s = .next { s with phase := .send .getMtu }) ∧
    (s.upc = .m3 → step s = .next { s with phase := .send (.setReceiptNotification s.cfg.prnDisable) }) ∧
    (s.upc = .m4 → step s = .next { s with phase := .send (.selectObject .command) }) ∧
    (s.upc = .m5 → step s = .next { s with phase := .send (.createObject .command s.initLen) }) ∧
    (s.upc = .m7 → step s = .next { s with phase := .send .getCrc }) ∧
    (s.upc = .m8 → step s = .next { s with phase := .send .execute }) ∧
    (s.upc = .m9 → step s = .next { s with phase := .send (.selectObject .data) }) ∧
    (s.upc = .m12 → step s = .next { s with phase := .send .getCrc }) ∧
    (s.upc = .m13 → step s = .next { s with phase := .send .execute })

/-- R253, R254, R255: what M1, M2 and M3 do with their responses. -/
def Obligations.ConnectStepsFinish : Prop :=
  ∀ s : State, s.phase = .finish →
    (s.upc = .m1 → s.rsp.version = s.cfg.supportedVersion →
      step s = .next { s with seq := .connecting, upc := .m2, phase := .enter }) ∧
    (s.upc = .m1 → s.rsp.version ≠ s.cfg.supportedVersion →
      step s = .next (raise (.versionMismatch s.rsp.version) s)) ∧
    (s.upc = .m2 →
      step s = .next { s with mtu := s.rsp.mtu, seq := .connecting, upc := .m3, phase := .enter }) ∧
    (s.upc = .m3 → step s = .next { s with seq := .negotiated, upc := .m4, phase := .enter })

/-- R256, R257, R259, R260: what the init-packet steps do with their responses. -/
def Obligations.DatStepsFinish : Prop :=
  ∀ s : State, s.phase = .finish →
    (s.upc = .m4 → step s = .next { s with seq := .datSelected, upc := .m5, phase := .enter }) ∧
    (s.upc = .m5 → step s = .next { s with seq := .datCreated, upc := .m6, phase := .enter }) ∧
    (s.upc = .m7 → s.rsp.crc.crc = s.crcAcc →
      step s = .next { s with seq := .datCrcChecked, upc := .m8, phase := .enter }) ∧
    (s.upc = .m7 → s.rsp.crc.crc ≠ s.crcAcc →
      step s = .next (raise (.integrity s.crcAcc s.rsp.crc.crc) s)) ∧
    (s.upc = .m8 → step s = .next { s with seq := .datExecuted, upc := .m9, phase := .enter })

/-- R261 to R265, R278: what the firmware steps do with their responses, and the test at the head of M10. -/
def Obligations.BinStepsFinish : Prop :=
  ∀ s : State,
    (s.phase = .finish → s.upc = .m9 → s.rsp.sel.maxSize ≠ 0 →
      step s = .next { s with
        maxSize := s.rsp.sel.maxSize, fwOff := 0, crcAcc := 0, seq := .binSelected, upc := .m10,
        phase := .enter }) ∧
    (s.phase = .finish → s.upc = .m9 → s.rsp.sel.maxSize = 0 →
      step s = .next (raise (.modelFault .maxSizeZero) { s with maxSize := 0 })) ∧
    (s.phase = .enter → s.upc = .m10 → s.fwOff = s.fwPlen →
      step s = .next { s with seq := .done, upc := .m14 }) ∧
    (s.phase = .enter → s.upc = .m10 → s.fwOff.toNat < s.fwPlen.toNat →
      ∃ n : U32, n.toNat = min s.maxSize.toNat (s.fwPlen.toNat - s.fwOff.toNat) ∧
        step s = .next { s with chunkLen := n, phase := .send (.createObject .data n) }) ∧
    (s.phase = .finish → s.upc = .m10 →
      step s = .next { s with seq := .binCreated, upc := .m11, phase := .enter }) ∧
    (s.phase = .finish → s.upc = .m12 → s.rsp.crc.crc = s.crcAcc →
      step s = .next { s with seq := .binCrcChecked, upc := .m13, phase := .enter }) ∧
    (s.phase = .finish → s.upc = .m12 → s.rsp.crc.crc ≠ s.crcAcc →
      step s = .next (raise (.integrity s.crcAcc s.rsp.crc.crc) s)) ∧
    (s.phase = .finish → s.upc = .m13 →
      step s = .next { s with
        fwOff := s.fwOff + s.chunkLen, seq := .binExecuted, upc := .m10, phase := .enter })

/-- R258, R263, R268, R270: M6 and M11 open their streams, or fault on an MTU of at most 4 bytes. -/
def Obligations.StreamsOpenOrFault : Prop :=
  ∀ s : State, s.phase = .enter →
    (s.upc = .m6 → 4 < s.mtu.toNat →
      step s = .next { s with
        seq := .datStreaming, crcAcc := 0, strSpace := .initMem, strBase := 0, strLen := s.initLen,
        strPtr := 0, fragMax := ((s.mtu.toNat : Int) - 1) / 2 - 1, phase := .stream }) ∧
    (s.upc = .m11 → 4 < s.mtu.toNat →
      step s = .next { s with
        seq := .binStreaming, strSpace := .fwpad, strBase := s.fwOff, strLen := s.chunkLen,
        strPtr := 0, fragMax := ((s.mtu.toNat : Int) - 1) / 2 - 1, phase := .stream }) ∧
    (s.upc = .m6 ∨ s.upc = .m11 → s.mtu.toNat ≤ 4 →
      ∃ t, step s = .next t ∧ t.upc = .mf ∧ t.errValid = true ∧
        t.err = { kind := .modelFault (.mtuTooSmall s.mtu), step := s.upc } ∧ t.txLog = s.txLog)

/-- R270, R271, R27: `frag_max` in integers with floor division, its range, the values R271 lists, and that it
is at least 1 exactly for an MTU of 5 or more. -/
def Obligations.FragMaxRange : Prop :=
  (∀ mtu : U16,
    fragMaxOf mtu = ((mtu.toNat : Int) - 1) / 2 - 1 ∧ (fragMaxOf mtu < 1 ↔ mtu.toNat ≤ 4) ∧
    -2 ≤ fragMaxOf mtu ∧ fragMaxOf mtu ≤ 32766) ∧
  fragMaxOf 0 = -2 ∧ fragMaxOf 1 = -1 ∧ fragMaxOf 2 = -1 ∧ fragMaxOf 3 = 0 ∧ fragMaxOf 4 = 0 ∧
  fragMaxOf 5 = 1 ∧ fragMaxOf 6 = 1 ∧ fragMaxOf 7 = 2 ∧ fragMaxOf 11 = 4 ∧ fragMaxOf 64 = 30 ∧
  fragMaxOf 131 = 64 ∧ fragMaxOf 247 = 122 ∧ fragMaxOf 65535 = 32766

/-- R269: a WriteChunk of `k` bytes has a message of `k + 1` bytes and a frame of at most `2k + 3`, so that one
of at most `frag_max` bytes frames to at most `mtu` bytes, and to fewer for even `mtu`. -/
def Obligations.ChunkFrameFitsMtu : Prop :=
  ∀ (c : Config) (d : Bytes),
    (encReq c (.writeChunk d)).length = d.length + 1 ∧
    (frame c (encReq c (.writeChunk d))).length ≤ 2 * d.length + 3 ∧
    ∀ mtu : U16, (d.length : Int) ≤ fragMaxOf mtu →
      (frame c (encReq c (.writeChunk d))).length ≤ mtu.toNat ∧
      (2 ∣ mtu.toNat → (frame c (encReq c (.writeChunk d))).length < mtu.toNat)

/-- R268, R273: the greedy split loses nothing, keeps the order, respects the bound and has the least
number of fragments. -/
def Obligations.FragmentsCoverStream : Prop :=
  ∀ (k : Nat) (d : Bytes), 0 < k →
    (fragments k d).flatten = d ∧ (∀ f ∈ fragments k d, 1 ≤ f.length ∧ f.length ≤ k) ∧
    (fragments k d).length = (d.length + k - 1) / k

/-- R268: on a stream whose writes and flushes succeed, STREAM sends every remaining byte as WriteChunk
frames in order, each flushed, feeds them to the CRC, reads nothing from `RX`, and goes on to the next
microprogram step. -/
def Obligations.StreamSendsEveryFragment : Prop :=
  ∀ (s : State) (d : Bytes) (rest : List TxResult), s.upc = .m6 ∨ s.upc = .m11 → s.phase = .stream →
    1 ≤ s.fragMax → s.strPtr.toNat ≤ s.strLen.toNat →
    memRead s s.strSpace (s.strBase.toNat + s.strPtr.toNat) (s.strLen.toNat - s.strPtr.toNat) = some d →
    s.tx = List.replicate (2 * (fragments s.fragMax.toNat d).length) .ok ++ rest →
    ∃ t, run (5 * (fragments s.fragMax.toNat d).length + 1) s = .next t ∧ t.phase = .enter ∧
      t.upc = (if s.upc = .m6 then .m7 else .m12) ∧ t.seq = s.seq ∧ t.strPtr = s.strLen ∧
      t.crcAcc = crc32 s.cfg d s.crcAcc ∧ t.tx = rest ∧ t.rx = s.rx ∧ t.awaiting = s.awaiting ∧
      t.txLog = s.txLog ++
        (fragments s.fragMax.toNat d).flatMap (fun f => sentMarks s.cfg (.writeChunk f))

/-- R62: the padded image byte by byte. -/
def Obligations.PaddedImageIsView : Prop :=
  ∀ (s : State) (i : Nat), s.fwMem.length = s.fwLen.toNat → s.fwLen.toNat ≤ s.fwPlen.toNat →
    (∀ h : i < s.fwMem.length, readByte s .fwpad i = some s.fwMem[i]) ∧
    (s.fwMem.length ≤ i → i < s.fwPlen.toNat → readByte s .fwpad i = some s.cfg.padByte) ∧
    (s.fwPlen.toNat ≤ i → readByte s .fwpad i = none)

/-- R68, R272: the padded length is the smallest multiple of `PAD_ALIGN` not below the length. -/
def Obligations.PaddedLengthIsLeastMultiple : Prop :=
  ∀ (c : Config) (n : Nat), 0 < c.padAlign →
    c.padAlign ∣ paddedLength c n ∧ n ≤ paddedLength c n ∧
    (∀ m, c.padAlign ∣ m → n ≤ m → paddedLength c n ≤ m) ∧
    (c.padAlign ∣ n → paddedLength c n = n)

/-- R214, R211, R143, R171: a whole exchange. On a stream that takes the frame and delivers the frame of an
accepted answer, `XACT(r)` of each of the seven awaited requests (R96; GetHardwareVersion is never sent, R162)
puts exactly the request's frame and one flush on the wire, consumes exactly the answer's frame, and ends
with the answer's members in `rsp`. -/
def Obligations.ExchangeCompletes : Prop :=
  ∀ (s : State) (r : Request) (i : Instr) (p : Bytes) (rest : List RxEvent) (txRest : List TxResult),
    halted s = false → s.phase = .send r → (∀ d, r ≠ .writeChunk d) → r ≠ .getHardwareVersion →
    s.cfg.framingOk →
    (∀ n ∈ s.cfg.rxCap, p.length ≤ n) → s.tx = .ok :: .ok :: txRest →
    s.rx = (frame s.cfg p).map RxEvent.byte ++ rest →
    decodeResponse s.cfg (opcodeOf s.cfg r) (shapeFor r) p = .ok i → (∀ e w, i ≠ .rspRejected e w) →
    ∃ t u, run (4 + (frame s.cfg p).length) s = .next t ∧ exec i s = .next u ∧
      t = { s with
        rsp := u.rsp, txBuf := frame s.cfg (encReq s.cfg r), rxBuf := p, rxEsc := false,
        awaiting := false, outOp := opcodeOf s.cfg r, outShape := shapeFor r, rx := rest, tx := txRest,
        txLog := s.txLog ++ sentMarks s.cfg r, phase := .finish }

/-! ## Invariants -/

/-- The session invariant holds of every new Session whose `PAD_ALIGN` is at least 1 (R9), as in the default
configuration. -/
def Obligations.NewSessionMeetsInvariant : Prop :=
  (∀ c : Config, 0 < c.padAlign → SessionInv (State.resetWith c)) ∧ SessionInv State.reset ∧
    ∀ s : State, 0 < s.cfg.padAlign → SessionInv (newSession s)

/-- R250, R275, R316: every step keeps control in order. At M6 and M11 `seq` is still the value after the step
before until the first transfer of the step (log entry 24). -/
def Obligations.StepKeepsControl : Prop :=
  ∀ s t : State, ControlInv s → step s = .next t → ControlInv t

/-- R32, R360: every step keeps `awaiting` equal to "inside RECV", with the outstanding request recorded. -/
def Obligations.StepKeepsExchange : Prop :=
  ∀ s t : State, ControlInv s → ExchangeInv s → step s = .next t → ExchangeInv t

/-- R25, R26, R27, R30: every step keeps lengths, chunk, stream registers and receive buffer in range. -/
def Obligations.StepKeepsData : Prop :=
  ∀ s t : State, ControlInv s → DataInv s → step s = .next t → DataInv t

/-- R237, R259, R264: every step keeps `crc_acc` equal to the CRC of exactly the bytes streamed. -/
def Obligations.StepKeepsCrcCoverage : Prop :=
  ∀ s t : State, ControlInv s → DataInv s → CrcInv s → step s = .next t → CrcInv t

/-- What the host and the environment do keeps the session invariant (R7, R8, R252, R351). -/
def Obligations.EnvironmentKeepsInvariant : Prop :=
  ∀ s : State, SessionInv s →
    (∀ i f, SessionInv (hostStart i f s)) ∧ (∀ e, SessionInv (deliver e s)) ∧
    (∀ e, SessionInv (answerTx e s)) ∧ SessionInv (newSession s)

/-- R63: no step of a session in order reads outside a space; it always has a next state. -/
def Obligations.SessionNeverFaults : Prop :=
  ∀ s : State, ControlInv s → DataInv s → ∃ t, step s = .next t

/-- R360, R73 (d): nothing goes on the wire while a response is outstanding. -/
def Obligations.NoWriteWhileAwaiting : Prop :=
  ∀ s t : State, ControlInv s → ExchangeInv s → step s = .next t → t.txLog ≠ s.txLog →
    s.awaiting = false

/-- R259, R260, R264: a session reaches an Execute only if the CRC the device reported is that of every byte
of the object streamed so far. -/
def Obligations.ExecuteOnlyAfterVerifiedCrc : Prop :=
  ∀ s t : State, SessionInv s → step s = .next t →
    (s.upc = .m7 → t.upc = .m8 → s.rsp.crc.crc = crc32 s.cfg s.initMem 0) ∧
    (s.upc = .m12 → t.upc = .m13 →
      s.rsp.crc.crc = crc32 s.cfg ((fwpad s).take (s.fwOff.toNat + s.chunkLen.toNat)) 0)

/-! ## Rules over every step -/

/-- R274: a step leaves `upc`, moves it to a successor, or fails the session. -/
def Obligations.UpcFollowsMicroprogram : Prop :=
  ∀ s t : State, step s = .next t →
    t.upc = s.upc ∨ successor s.upc t.upc = true ∨ (t.upc = .mf ∧ t.seq = .failed ∧ t.errValid = true)

/-- R23, R24: who writes the two negotiated values, and with what. -/
def Obligations.NegotiatedValuesHaveOneWriter : Prop :=
  ∀ s t : State, step s = .next t →
    (t.mtu ≠ s.mtu → s.upc = .m2 ∧ s.phase = .finish ∧ t.mtu = s.rsp.mtu) ∧
    (t.maxSize ≠ s.maxSize → s.upc = .m9 ∧ s.phase = .finish ∧ t.maxSize = s.rsp.sel.maxSize)

/-- R28: who writes `crc_acc`: it is loaded with 0 at M6 and at M9, takes the bytes of a fragment just sent,
and is written by nothing else. -/
def Obligations.CrcAccumulatorWriters : Prop :=
  ∀ s t : State, step s = .next t → t.crcAcc ≠ s.crcAcc →
    (s.upc = .m6 ∧ s.phase = .enter ∧ t.crcAcc = 0) ∨ (s.upc = .m9 ∧ s.phase = .finish ∧ t.crcAcc = 0) ∨
    ∃ d, s.phase = .sent d ∧ t.crcAcc = crc32 s.cfg d s.crcAcc

/-- R61, R37, R322: the input buffers change at no step but M0; the parameters and the ready line never. -/
def Obligations.InputsAndParametersAreConstant : Prop :=
  ∀ s t : State, step s = .next t →
    t.cfg = s.cfg ∧ t.ready = s.ready ∧ (s.upc ≠ .m0 → t.initMem = s.initMem ∧ t.fwMem = s.fwMem)

/-- R39: the engine never observes `TX_LOG`: earlier contents change no step. -/
def Obligations.LogIsNeverRead : Prop :=
  ∀ (s : State) (l : List TxMark),
    step { s with txLog := l ++ s.txLog } = mapNext (fun t => { t with txLog := l ++ t.txLog }) (step s)

/-- R267: the response members the sequencer does not read cannot influence anything else. -/
def Obligations.UnreadMembersHaveNoInfluence : Prop :=
  ∀ s s' : State, hideUnread s = hideUnread s' →
    mapNext hideUnread (step s) = mapNext hideUnread (step s')
end

