-- ==== Sys2Proof/Laws/Encoding.lean ====
section
/-! SUPPORT. The byte-order functions read what they write, and the frame function byte by byte. -/

namespace Sys2Proof

@[simp] theorem le16_length (v : U16) : (le16 v).length = 2 := rfl

@[simp] theorem le32_length (v : U32) : (le32 v).length = 4 := rfl

@[simp] theorem byteAt_zero (b : Byte) (l : Bytes) : byteAt (b :: l) 0 = b := rfl

@[simp] theorem byteAt_of_lt (l : Bytes) (i : Nat) (h : i < l.length) : byteAt l i = l[i] := by
  simp [byteAt, h]

/-- Reading a u16 where its two bytes stand. -/
theorem rdLe16_of_bytes (B : Bytes) (i : Nat) (v : U16) (h0 : byteAt B i = v.extractLsb' 0 8)
    (h1 : byteAt B (i + 1) = v.extractLsb' 8 8) : rdLe16 B i = v := by
  apply BitVec.eq_of_toNat_eq
  simp only [rdLe16, h0, h1, BitVec.toNat_ofNat, BitVec.extractLsb'_toNat, Nat.shiftRight_eq_div_pow]
  omega

/-- Reading a u32 where its four bytes stand. -/
theorem rdLe32_of_bytes (B : Bytes) (i : Nat) (v : U32) (h0 : byteAt B i = v.extractLsb' 0 8)
    (h1 : byteAt B (i + 1) = v.extractLsb' 8 8) (h2 : byteAt B (i + 2) = v.extractLsb' 16 8)
    (h3 : byteAt B (i + 3) = v.extractLsb' 24 8) : rdLe32 B i = v := by
  apply BitVec.eq_of_toNat_eq
  simp only [rdLe32, h0, h1, h2, h3, BitVec.toNat_ofNat, BitVec.extractLsb'_toNat,
    Nat.shiftRight_eq_div_pow]
  omega

@[simp] theorem frame_nil (c : Config) : frame c [] = [c.endByte] := rfl

@[simp] theorem frame_cons (c : Config) (b : Byte) (p : Bytes) :
    frame c (b :: p) = sym c b ++ frame c p := by
  simp [frame]

/-- A symbol is one byte that stands for itself, or a pair. -/
theorem sym_cases (c : Config) (b : Byte) :
    (b = c.endByte ∧ sym c b = [c.escByte, c.subEnd]) ∨
    (b ≠ c.endByte ∧ b = c.escByte ∧ sym c b = [c.escByte, c.subEsc]) ∨
    (b ≠ c.endByte ∧ b ≠ c.escByte ∧ sym c b = [b]) := by
  unfold sym; split_ifs <;> simp_all

end Sys2Proof
end

