-- ==== Sys2Proof/Laws/State.lean ====
section
/-! SUPPORT. The fields of the state under each named update: one lemma per field per update, true by rfl, so
that no later proof unfolds a record update. -/

namespace Sys2Proof.Machine

variable (s : State)

/-! ## `raise`: the abort (R312) -/

@[simp] theorem raise_seq (k : ErrKind) : (raise k s).seq = .failed := rfl
@[simp] theorem raise_upc (k : ErrKind) : (raise k s).upc = .mf := rfl
@[simp] theorem raise_mtu (k : ErrKind) : (raise k s).mtu = s.mtu := rfl
@[simp] theorem raise_maxSize (k : ErrKind) : (raise k s).maxSize = s.maxSize := rfl
@[simp] theorem raise_initLen (k : ErrKind) : (raise k s).initLen = s.initLen := rfl
@[simp] theorem raise_fwLen (k : ErrKind) : (raise k s).fwLen = s.fwLen := rfl
@[simp] theorem raise_fwPlen (k : ErrKind) : (raise k s).fwPlen = s.fwPlen := rfl
@[simp] theorem raise_fwOff (k : ErrKind) : (raise k s).fwOff = s.fwOff := rfl
@[simp] theorem raise_chunkLen (k : ErrKind) : (raise k s).chunkLen = s.chunkLen := rfl
@[simp] theorem raise_strSpace (k : ErrKind) : (raise k s).strSpace = s.strSpace := rfl
@[simp] theorem raise_strBase (k : ErrKind) : (raise k s).strBase = s.strBase := rfl
@[simp] theorem raise_strLen (k : ErrKind) : (raise k s).strLen = s.strLen := rfl
@[simp] theorem raise_strPtr (k : ErrKind) : (raise k s).strPtr = s.strPtr := rfl
@[simp] theorem raise_fragMax (k : ErrKind) : (raise k s).fragMax = s.fragMax := rfl
@[simp] theorem raise_crcAcc (k : ErrKind) : (raise k s).crcAcc = s.crcAcc := rfl
@[simp] theorem raise_txBuf (k : ErrKind) : (raise k s).txBuf = s.txBuf := rfl
@[simp] theorem raise_rxBuf (k : ErrKind) : (raise k s).rxBuf = s.rxBuf := rfl
@[simp] theorem raise_rxEsc (k : ErrKind) : (raise k s).rxEsc = s.rxEsc := rfl
@[simp] theorem raise_awaiting (k : ErrKind) : (raise k s).awaiting = s.awaiting := rfl
@[simp] theorem raise_outOp (k : ErrKind) : (raise k s).outOp = s.outOp := rfl
@[simp] theorem raise_outShape (k : ErrKind) : (raise k s).outShape = s.outShape := rfl
@[simp] theorem raise_rsp (k : ErrKind) : (raise k s).rsp = s.rsp := rfl
@[simp] theorem raise_errValid (k : ErrKind) : (raise k s).errValid = true := rfl
@[simp] theorem raise_err (k : ErrKind) : (raise k s).err = { kind := k, step := s.upc } := rfl
@[simp] theorem raise_cfg (k : ErrKind) : (raise k s).cfg = s.cfg := rfl
@[simp] theorem raise_initMem (k : ErrKind) : (raise k s).initMem = s.initMem := rfl
@[simp] theorem raise_fwMem (k : ErrKind) : (raise k s).fwMem = s.fwMem := rfl
@[simp] theorem raise_rx (k : ErrKind) : (raise k s).rx = s.rx := rfl
@[simp] theorem raise_tx (k : ErrKind) : (raise k s).tx = s.tx := rfl
@[simp] theorem raise_txLog (k : ErrKind) : (raise k s).txLog = s.txLog := rfl
@[simp] theorem raise_cmd (k : ErrKind) : (raise k s).cmd = s.cmd := rfl
@[simp] theorem raise_ready (k : ErrKind) : (raise k s).ready = s.ready := rfl
@[simp] theorem raise_phase (k : ErrKind) : (raise k s).phase = s.phase := rfl

/-! ## `setPhase`: the engine moves on inside a step -/

@[simp] theorem setPhase_seq (p : Phase) : (setPhase p s).seq = s.seq := rfl
@[simp] theorem setPhase_upc (p : Phase) : (setPhase p s).upc = s.upc := rfl
@[simp] theorem setPhase_mtu (p : Phase) : (setPhase p s).mtu = s.mtu := rfl
@[simp] theorem setPhase_maxSize (p : Phase) : (setPhase p s).maxSize = s.maxSize := rfl
@[simp] theorem setPhase_initLen (p : Phase) : (setPhase p s).initLen = s.initLen := rfl
@[simp] theorem setPhase_fwLen (p : Phase) : (setPhase p s).fwLen = s.fwLen := rfl
@[simp] theorem setPhase_fwPlen (p : Phase) : (setPhase p s).fwPlen = s.fwPlen := rfl
@[simp] theorem setPhase_fwOff (p : Phase) : (setPhase p s).fwOff = s.fwOff := rfl
@[simp] theorem setPhase_chunkLen (p : Phase) : (setPhase p s).chunkLen = s.chunkLen := rfl
@[simp] theorem setPhase_strSpace (p : Phase) : (setPhase p s).strSpace = s.strSpace := rfl
@[simp] theorem setPhase_strBase (p : Phase) : (setPhase p s).strBase = s.strBase := rfl
@[simp] theorem setPhase_strLen (p : Phase) : (setPhase p s).strLen = s.strLen := rfl
@[simp] theorem setPhase_strPtr (p : Phase) : (setPhase p s).strPtr = s.strPtr := rfl
@[simp] theorem setPhase_fragMax (p : Phase) : (setPhase p s).fragMax = s.fragMax := rfl
@[simp] theorem setPhase_crcAcc (p : Phase) : (setPhase p s).crcAcc = s.crcAcc := rfl
@[simp] theorem setPhase_txBuf (p : Phase) : (setPhase p s).txBuf = s.txBuf := rfl
@[simp] theorem setPhase_rxBuf (p : Phase) : (setPhase p s).rxBuf = s.rxBuf := rfl
@[simp] theorem setPhase_rxEsc (p : Phase) : (setPhase p s).rxEsc = s.rxEsc := rfl
@[simp] theorem setPhase_awaiting (p : Phase) : (setPhase p s).awaiting = s.awaiting := rfl
@[simp] theorem setPhase_outOp (p : Phase) : (setPhase p s).outOp = s.outOp := rfl
@[simp] theorem setPhase_outShape (p : Phase) : (setPhase p s).outShape = s.outShape := rfl
@[simp] theorem setPhase_rsp (p : Phase) : (setPhase p s).rsp = s.rsp := rfl
@[simp] theorem setPhase_errValid (p : Phase) : (setPhase p s).errValid = s.errValid := rfl
@[simp] theorem setPhase_err (p : Phase) : (setPhase p s).err = s.err := rfl
@[simp] theorem setPhase_cfg (p : Phase) : (setPhase p s).cfg = s.cfg := rfl
@[simp] theorem setPhase_initMem (p : Phase) : (setPhase p s).initMem = s.initMem := rfl
@[simp] theorem setPhase_fwMem (p : Phase) : (setPhase p s).fwMem = s.fwMem := rfl
@[simp] theorem setPhase_rx (p : Phase) : (setPhase p s).rx = s.rx := rfl
@[simp] theorem setPhase_tx (p : Phase) : (setPhase p s).tx = s.tx := rfl
@[simp] theorem setPhase_txLog (p : Phase) : (setPhase p s).txLog = s.txLog := rfl
@[simp] theorem setPhase_cmd (p : Phase) : (setPhase p s).cmd = s.cmd := rfl
@[simp] theorem setPhase_ready (p : Phase) : (setPhase p s).ready = s.ready := rfl
@[simp] theorem setPhase_phase (p : Phase) : (setPhase p s).phase = p := rfl

/-! ## `setSeq`: R258, R263 -/

@[simp] theorem setSeq_seq (q : Seq) : (setSeq q s).seq = q := rfl
@[simp] theorem setSeq_upc (q : Seq) : (setSeq q s).upc = s.upc := rfl
@[simp] theorem setSeq_mtu (q : Seq) : (setSeq q s).mtu = s.mtu := rfl
@[simp] theorem setSeq_maxSize (q : Seq) : (setSeq q s).maxSize = s.maxSize := rfl
@[simp] theorem setSeq_initLen (q : Seq) : (setSeq q s).initLen = s.initLen := rfl
@[simp] theorem setSeq_fwLen (q : Seq) : (setSeq q s).fwLen = s.fwLen := rfl
@[simp] theorem setSeq_fwPlen (q : Seq) : (setSeq q s).fwPlen = s.fwPlen := rfl
@[simp] theorem setSeq_fwOff (q : Seq) : (setSeq q s).fwOff = s.fwOff := rfl
@[simp] theorem setSeq_chunkLen (q : Seq) : (setSeq q s).chunkLen = s.chunkLen := rfl
@[simp] theorem setSeq_strSpace (q : Seq) : (setSeq q s).strSpace = s.strSpace := rfl
@[simp] theorem setSeq_strBase (q : Seq) : (setSeq q s).strBase = s.strBase := rfl
@[simp] theorem setSeq_strLen (q : Seq) : (setSeq q s).strLen = s.strLen := rfl
@[simp] theorem setSeq_strPtr (q : Seq) : (setSeq q s).strPtr = s.strPtr := rfl
@[simp] theorem setSeq_fragMax (q : Seq) : (setSeq q s).fragMax = s.fragMax := rfl
@[simp] theorem setSeq_crcAcc (q : Seq) : (setSeq q s).crcAcc = s.crcAcc := rfl
@[simp] theorem setSeq_txBuf (q : Seq) : (setSeq q s).txBuf = s.txBuf := rfl
@[simp] theorem setSeq_rxBuf (q : Seq) : (setSeq q s).rxBuf = s.rxBuf := rfl
@[simp] theorem setSeq_rxEsc (q : Seq) : (setSeq q s).rxEsc = s.rxEsc := rfl
@[simp] theorem setSeq_awaiting (q : Seq) : (setSeq q s).awaiting = s.awaiting := rfl
@[simp] theorem setSeq_outOp (q : Seq) : (setSeq q s).outOp = s.outOp := rfl
@[simp] theorem setSeq_outShape (q : Seq) : (setSeq q s).outShape = s.outShape := rfl
@[simp] theorem setSeq_rsp (q : Seq) : (setSeq q s).rsp = s.rsp := rfl
@[simp] theorem setSeq_errValid (q : Seq) : (setSeq q s).errValid = s.errValid := rfl
@[simp] theorem setSeq_err (q : Seq) : (setSeq q s).err = s.err := rfl
@[simp] theorem setSeq_cfg (q : Seq) : (setSeq q s).cfg = s.cfg := rfl
@[simp] theorem setSeq_initMem (q : Seq) : (setSeq q s).initMem = s.initMem := rfl
@[simp] theorem setSeq_fwMem (q : Seq) : (setSeq q s).fwMem = s.fwMem := rfl
@[simp] theorem setSeq_rx (q : Seq) : (setSeq q s).rx = s.rx := rfl
@[simp] theorem setSeq_tx (q : Seq) : (setSeq q s).tx = s.tx := rfl
@[simp] theorem setSeq_txLog (q : Seq) : (setSeq q s).txLog = s.txLog := rfl
@[simp] theorem setSeq_cmd (q : Seq) : (setSeq q s).cmd = s.cmd := rfl
@[simp] theorem setSeq_ready (q : Seq) : (setSeq q s).ready = s.ready := rfl
@[simp] theorem setSeq_phase (q : Seq) : (setSeq q s).phase = s.phase := rfl

/-! ## `goTo`: the end of a microprogram step (R250) -/

@[simp] theorem goTo_seq (q : Seq) (u : Upc) : (goTo q u s).seq = q := rfl
@[simp] theorem goTo_upc (q : Seq) (u : Upc) : (goTo q u s).upc = u := rfl
@[simp] theorem goTo_mtu (q : Seq) (u : Upc) : (goTo q u s).mtu = s.mtu := rfl
@[simp] theorem goTo_maxSize (q : Seq) (u : Upc) : (goTo q u s).maxSize = s.maxSize := rfl
@[simp] theorem goTo_initLen (q : Seq) (u : Upc) : (goTo q u s).initLen = s.initLen := rfl
@[simp] theorem goTo_fwLen (q : Seq) (u : Upc) : (goTo q u s).fwLen = s.fwLen := rfl
@[simp] theorem goTo_fwPlen (q : Seq) (u : Upc) : (goTo q u s).fwPlen = s.fwPlen := rfl
@[simp] theorem goTo_fwOff (q : Seq) (u : Upc) : (goTo q u s).fwOff = s.fwOff := rfl
@[simp] theorem goTo_chunkLen (q : Seq) (u : Upc) : (goTo q u s).chunkLen = s.chunkLen := rfl
@[simp] theorem goTo_strSpace (q : Seq) (u : Upc) : (goTo q u s).strSpace = s.strSpace := rfl
@[simp] theorem goTo_strBase (q : Seq) (u : Upc) : (goTo q u s).strBase = s.strBase := rfl
@[simp] theorem goTo_strLen (q : Seq) (u : Upc) : (goTo q u s).strLen = s.strLen := rfl
@[simp] theorem goTo_strPtr (q : Seq) (u : Upc) : (goTo q u s).strPtr = s.strPtr := rfl
@[simp] theorem goTo_fragMax (q : Seq) (u : Upc) : (goTo q u s).fragMax = s.fragMax := rfl
@[simp] theorem goTo_crcAcc (q : Seq) (u : Upc) : (goTo q u s).crcAcc = s.crcAcc := rfl
@[simp] theorem goTo_txBuf (q : Seq) (u : Upc) : (goTo q u s).txBuf = s.txBuf := rfl
@[simp] theorem goTo_rxBuf (q : Seq) (u : Upc) : (goTo q u s).rxBuf = s.rxBuf := rfl
@[simp] theorem goTo_rxEsc (q : Seq) (u : Upc) : (goTo q u s).rxEsc = s.rxEsc := rfl
@[simp] theorem goTo_awaiting (q : Seq) (u : Upc) : (goTo q u s).awaiting = s.awaiting := rfl
@[simp] theorem goTo_outOp (q : Seq) (u : Upc) : (goTo q u s).outOp = s.outOp := rfl
@[simp] theorem goTo_outShape (q : Seq) (u : Upc) : (goTo q u s).outShape = s.outShape := rfl
@[simp] theorem goTo_rsp (q : Seq) (u : Upc) : (goTo q u s).rsp = s.rsp := rfl
@[simp] theorem goTo_errValid (q : Seq) (u : Upc) : (goTo q u s).errValid = s.errValid := rfl
@[simp] theorem goTo_err (q : Seq) (u : Upc) : (goTo q u s).err = s.err := rfl
@[simp] theorem goTo_cfg (q : Seq) (u : Upc) : (goTo q u s).cfg = s.cfg := rfl
@[simp] theorem goTo_initMem (q : Seq) (u : Upc) : (goTo q u s).initMem = s.initMem := rfl
@[simp] theorem goTo_fwMem (q : Seq) (u : Upc) : (goTo q u s).fwMem = s.fwMem := rfl
@[simp] theorem goTo_rx (q : Seq) (u : Upc) : (goTo q u s).rx = s.rx := rfl
@[simp] theorem goTo_tx (q : Seq) (u : Upc) : (goTo q u s).tx = s.tx := rfl
@[simp] theorem goTo_txLog (q : Seq) (u : Upc) : (goTo q u s).txLog = s.txLog := rfl
@[simp] theorem goTo_cmd (q : Seq) (u : Upc) : (goTo q u s).cmd = s.cmd := rfl
@[simp] theorem goTo_ready (q : Seq) (u : Upc) : (goTo q u s).ready = s.ready := rfl
@[simp] theorem goTo_phase (q : Seq) (u : Upc) : (goTo q u s).phase = .enter := rfl

/-! ## `begin`: a step turns to its exchange -/

@[simp] theorem begin_seq (r : Request) : (begin r s).seq = s.seq := rfl
@[simp] theorem begin_upc (r : Request) : (begin r s).upc = s.upc := rfl
@[simp] theorem begin_mtu (r : Request) : (begin r s).mtu = s.mtu := rfl
@[simp] theorem begin_maxSize (r : Request) : (begin r s).maxSize = s.maxSize := rfl
@[simp] theorem begin_initLen (r : Request) : (begin r s).initLen = s.initLen := rfl
@[simp] theorem begin_fwLen (r : Request) : (begin r s).fwLen = s.fwLen := rfl
@[simp] theorem begin_fwPlen (r : Request) : (begin r s).fwPlen = s.fwPlen := rfl
@[simp] theorem begin_fwOff (r : Request) : (begin r s).fwOff = s.fwOff := rfl
@[simp] theorem begin_chunkLen (r : Request) : (begin r s).chunkLen = s.chunkLen := rfl
@[simp] theorem begin_strSpace (r : Request) : (begin r s).strSpace = s.strSpace := rfl
@[simp] theorem begin_strBase (r : Request) : (begin r s).strBase = s.strBase := rfl
@[simp] theorem begin_strLen (r : Request) : (begin r s).strLen = s.strLen := rfl
@[simp] theorem begin_strPtr (r : Request) : (begin r s).strPtr = s.strPtr := rfl
@[simp] theorem begin_fragMax (r : Request) : (begin r s).fragMax = s.fragMax := rfl
@[simp] theorem begin_crcAcc (r : Request) : (begin r s).crcAcc = s.crcAcc := rfl
@[simp] theorem begin_txBuf (r : Request) : (begin r s).txBuf = s.txBuf := rfl
@[simp] theorem begin_rxBuf (r : Request) : (begin r s).rxBuf = s.rxBuf := rfl
@[simp] theorem begin_rxEsc (r : Request) : (begin r s).rxEsc = s.rxEsc := rfl
@[simp] theorem begin_awaiting (r : Request) : (begin r s).awaiting = s.awaiting := rfl
@[simp] theorem begin_outOp (r : Request) : (begin r s).outOp = s.outOp := rfl
@[simp] theorem begin_outShape (r : Request) : (begin r s).outShape = s.outShape := rfl
@[simp] theorem begin_rsp (r : Request) : (begin r s).rsp = s.rsp := rfl
@[simp] theorem begin_errValid (r : Request) : (begin r s).errValid = s.errValid := rfl
@[simp] theorem begin_err (r : Request) : (begin r s).err = s.err := rfl
@[simp] theorem begin_cfg (r : Request) : (begin r s).cfg = s.cfg := rfl
@[simp] theorem begin_initMem (r : Request) : (begin r s).initMem = s.initMem := rfl
@[simp] theorem begin_fwMem (r : Request) : (begin r s).fwMem = s.fwMem := rfl
@[simp] theorem begin_rx (r : Request) : (begin r s).rx = s.rx := rfl
@[simp] theorem begin_tx (r : Request) : (begin r s).tx = s.tx := rfl
@[simp] theorem begin_txLog (r : Request) : (begin r s).txLog = s.txLog := rfl
@[simp] theorem begin_cmd (r : Request) : (begin r s).cmd = s.cmd := rfl
@[simp] theorem begin_ready (r : Request) : (begin r s).ready = s.ready := rfl
@[simp] theorem begin_phase (r : Request) : (begin r s).phase = .send r := rfl

/-! ## `setMtu`: R23 -/

@[simp] theorem setMtu_seq (v : U16) : (setMtu v s).seq = s.seq := rfl
@[simp] theorem setMtu_upc (v : U16) : (setMtu v s).upc = s.upc := rfl
@[simp] theorem setMtu_mtu (v : U16) : (setMtu v s).mtu = v := rfl
@[simp] theorem setMtu_maxSize (v : U16) : (setMtu v s).maxSize = s.maxSize := rfl
@[simp] theorem setMtu_initLen (v : U16) : (setMtu v s).initLen = s.initLen := rfl
@[simp] theorem setMtu_fwLen (v : U16) : (setMtu v s).fwLen = s.fwLen := rfl
@[simp] theorem setMtu_fwPlen (v : U16) : (setMtu v s).fwPlen = s.fwPlen := rfl
@[simp] theorem setMtu_fwOff (v : U16) : (setMtu v s).fwOff = s.fwOff := rfl
@[simp] theorem setMtu_chunkLen (v : U16) : (setMtu v s).chunkLen = s.chunkLen := rfl
@[simp] theorem setMtu_strSpace (v : U16) : (setMtu v s).strSpace = s.strSpace := rfl
@[simp] theorem setMtu_strBase (v : U16) : (setMtu v s).strBase = s.strBase := rfl
@[simp] theorem setMtu_strLen (v : U16) : (setMtu v s).strLen = s.strLen := rfl
@[simp] theorem setMtu_strPtr (v : U16) : (setMtu v s).strPtr = s.strPtr := rfl
@[simp] theorem setMtu_fragMax (v : U16) : (setMtu v s).fragMax = s.fragMax := rfl
@[simp] theorem setMtu_crcAcc (v : U16) : (setMtu v s).crcAcc = s.crcAcc := rfl
@[simp] theorem setMtu_txBuf (v : U16) : (setMtu v s).txBuf = s.txBuf := rfl
@[simp] theorem setMtu_rxBuf (v : U16) : (setMtu v s).rxBuf = s.rxBuf := rfl
@[simp] theorem setMtu_rxEsc (v : U16) : (setMtu v s).rxEsc = s.rxEsc := rfl
@[simp] theorem setMtu_awaiting (v : U16) : (setMtu v s).awaiting = s.awaiting := rfl
@[simp] theorem setMtu_outOp (v : U16) : (setMtu v s).outOp = s.outOp := rfl
@[simp] theorem setMtu_outShape (v : U16) : (setMtu v s).outShape = s.outShape := rfl
@[simp] theorem setMtu_rsp (v : U16) : (setMtu v s).rsp = s.rsp := rfl
@[simp] theorem setMtu_errValid (v : U16) : (setMtu v s).errValid = s.errValid := rfl
@[simp] theorem setMtu_err (v : U16) : (setMtu v s).err = s.err := rfl
@[simp] theorem setMtu_cfg (v : U16) : (setMtu v s).cfg = s.cfg := rfl
@[simp] theorem setMtu_initMem (v : U16) : (setMtu v s).initMem = s.initMem := rfl
@[simp] theorem setMtu_fwMem (v : U16) : (setMtu v s).fwMem = s.fwMem := rfl
@[simp] theorem setMtu_rx (v : U16) : (setMtu v s).rx = s.rx := rfl
@[simp] theorem setMtu_tx (v : U16) : (setMtu v s).tx = s.tx := rfl
@[simp] theorem setMtu_txLog (v : U16) : (setMtu v s).txLog = s.txLog := rfl
@[simp] theorem setMtu_cmd (v : U16) : (setMtu v s).cmd = s.cmd := rfl
@[simp] theorem setMtu_ready (v : U16) : (setMtu v s).ready = s.ready := rfl
@[simp] theorem setMtu_phase (v : U16) : (setMtu v s).phase = s.phase := rfl

/-! ## `setMaxSize`: R24 -/

@[simp] theorem setMaxSize_seq (v : U32) : (setMaxSize v s).seq = s.seq := rfl
@[simp] theorem setMaxSize_upc (v : U32) : (setMaxSize v s).upc = s.upc := rfl
@[simp] theorem setMaxSize_mtu (v : U32) : (setMaxSize v s).mtu = s.mtu := rfl
@[simp] theorem setMaxSize_maxSize (v : U32) : (setMaxSize v s).maxSize = v := rfl
@[simp] theorem setMaxSize_initLen (v : U32) : (setMaxSize v s).initLen = s.initLen := rfl
@[simp] theorem setMaxSize_fwLen (v : U32) : (setMaxSize v s).fwLen = s.fwLen := rfl
@[simp] theorem setMaxSize_fwPlen (v : U32) : (setMaxSize v s).fwPlen = s.fwPlen := rfl
@[simp] theorem setMaxSize_fwOff (v : U32) : (setMaxSize v s).fwOff = s.fwOff := rfl
@[simp] theorem setMaxSize_chunkLen (v : U32) : (setMaxSize v s).chunkLen = s.chunkLen := rfl
@[simp] theorem setMaxSize_strSpace (v : U32) : (setMaxSize v s).strSpace = s.strSpace := rfl
@[simp] theorem setMaxSize_strBase (v : U32) : (setMaxSize v s).strBase = s.strBase := rfl
@[simp] theorem setMaxSize_strLen (v : U32) : (setMaxSize v s).strLen = s.strLen := rfl
@[simp] theorem setMaxSize_strPtr (v : U32) : (setMaxSize v s).strPtr = s.strPtr := rfl
@[simp] theorem setMaxSize_fragMax (v : U32) : (setMaxSize v s).fragMax = s.fragMax := rfl
@[simp] theorem setMaxSize_crcAcc (v : U32) : (setMaxSize v s).crcAcc = s.crcAcc := rfl
@[simp] theorem setMaxSize_txBuf (v : U32) : (setMaxSize v s).txBuf = s.txBuf := rfl
@[simp] theorem setMaxSize_rxBuf (v : U32) : (setMaxSize v s).rxBuf = s.rxBuf := rfl
@[simp] theorem setMaxSize_rxEsc (v : U32) : (setMaxSize v s).rxEsc = s.rxEsc := rfl
@[simp] theorem setMaxSize_awaiting (v : U32) : (setMaxSize v s).awaiting = s.awaiting := rfl
@[simp] theorem setMaxSize_outOp (v : U32) : (setMaxSize v s).outOp = s.outOp := rfl
@[simp] theorem setMaxSize_outShape (v : U32) : (setMaxSize v s).outShape = s.outShape := rfl
@[simp] theorem setMaxSize_rsp (v : U32) : (setMaxSize v s).rsp = s.rsp := rfl
@[simp] theorem setMaxSize_errValid (v : U32) : (setMaxSize v s).errValid = s.errValid := rfl
@[simp] theorem setMaxSize_err (v : U32) : (setMaxSize v s).err = s.err := rfl
@[simp] theorem setMaxSize_cfg (v : U32) : (setMaxSize v s).cfg = s.cfg := rfl
@[simp] theorem setMaxSize_initMem (v : U32) : (setMaxSize v s).initMem = s.initMem := rfl
@[simp] theorem setMaxSize_fwMem (v : U32) : (setMaxSize v s).fwMem = s.fwMem := rfl
@[simp] theorem setMaxSize_rx (v : U32) : (setMaxSize v s).rx = s.rx := rfl
@[simp] theorem setMaxSize_tx (v : U32) : (setMaxSize v s).tx = s.tx := rfl
@[simp] theorem setMaxSize_txLog (v : U32) : (setMaxSize v s).txLog = s.txLog := rfl
@[simp] theorem setMaxSize_cmd (v : U32) : (setMaxSize v s).cmd = s.cmd := rfl
@[simp] theorem setMaxSize_ready (v : U32) : (setMaxSize v s).ready = s.ready := rfl
@[simp] theorem setMaxSize_phase (v : U32) : (setMaxSize v s).phase = s.phase := rfl

/-! ## `setFwOff`: R26 -/

@[simp] theorem setFwOff_seq (v : U32) : (setFwOff v s).seq = s.seq := rfl
@[simp] theorem setFwOff_upc (v : U32) : (setFwOff v s).upc = s.upc := rfl
@[simp] theorem setFwOff_mtu (v : U32) : (setFwOff v s).mtu = s.mtu := rfl
@[simp] theorem setFwOff_maxSize (v : U32) : (setFwOff v s).maxSize = s.maxSize := rfl
@[simp] theorem setFwOff_initLen (v : U32) : (setFwOff v s).initLen = s.initLen := rfl
@[simp] theorem setFwOff_fwLen (v : U32) : (setFwOff v s).fwLen = s.fwLen := rfl
@[simp] theorem setFwOff_fwPlen (v : U32) : (setFwOff v s).fwPlen = s.fwPlen := rfl
@[simp] theorem setFwOff_fwOff (v : U32) : (setFwOff v s).fwOff = v := rfl
@[simp] theorem setFwOff_chunkLen (v : U32) : (setFwOff v s).chunkLen = s.chunkLen := rfl
@[simp] theorem setFwOff_strSpace (v : U32) : (setFwOff v s).strSpace = s.strSpace := rfl
@[simp] theorem setFwOff_strBase (v : U32) : (setFwOff v s).strBase = s.strBase := rfl
@[simp] theorem setFwOff_strLen (v : U32) : (setFwOff v s).strLen = s.strLen := rfl
@[simp] theorem setFwOff_strPtr (v : U32) : (setFwOff v s).strPtr = s.strPtr := rfl
@[simp] theorem setFwOff_fragMax (v : U32) : (setFwOff v s).fragMax = s.fragMax := rfl
@[simp] theorem setFwOff_crcAcc (v : U32) : (setFwOff v s).crcAcc = s.crcAcc := rfl
@[simp] theorem setFwOff_txBuf (v : U32) : (setFwOff v s).txBuf = s.txBuf := rfl
@[simp] theorem setFwOff_rxBuf (v : U32) : (setFwOff v s).rxBuf = s.rxBuf := rfl
@[simp] theorem setFwOff_rxEsc (v : U32) : (setFwOff v s).rxEsc = s.rxEsc := rfl
@[simp] theorem setFwOff_awaiting (v : U32) : (setFwOff v s).awaiting = s.awaiting := rfl
@[simp] theorem setFwOff_outOp (v : U32) : (setFwOff v s).outOp = s.outOp := rfl
@[simp] theorem setFwOff_outShape (v : U32) : (setFwOff v s).outShape = s.outShape := rfl
@[simp] theorem setFwOff_rsp (v : U32) : (setFwOff v s).rsp = s.rsp := rfl
@[simp] theorem setFwOff_errValid (v : U32) : (setFwOff v s).errValid = s.errValid := rfl
@[simp] theorem setFwOff_err (v : U32) : (setFwOff v s).err = s.err := rfl
@[simp] theorem setFwOff_cfg (v : U32) : (setFwOff v s).cfg = s.cfg := rfl
@[simp] theorem setFwOff_initMem (v : U32) : (setFwOff v s).initMem = s.initMem := rfl
@[simp] theorem setFwOff_fwMem (v : U32) : (setFwOff v s).fwMem = s.fwMem := rfl
@[simp] theorem setFwOff_rx (v : U32) : (setFwOff v s).rx = s.rx := rfl
@[simp] theorem setFwOff_tx (v : U32) : (setFwOff v s).tx = s.tx := rfl
@[simp] theorem setFwOff_txLog (v : U32) : (setFwOff v s).txLog = s.txLog := rfl
@[simp] theorem setFwOff_cmd (v : U32) : (setFwOff v s).cmd = s.cmd := rfl
@[simp] theorem setFwOff_ready (v : U32) : (setFwOff v s).ready = s.ready := rfl
@[simp] theorem setFwOff_phase (v : U32) : (setFwOff v s).phase = s.phase := rfl

/-! ## `setChunkLen`: R26 -/

@[simp] theorem setChunkLen_seq (v : U32) : (setChunkLen v s).seq = s.seq := rfl
@[simp] theorem setChunkLen_upc (v : U32) : (setChunkLen v s).upc = s.upc := rfl
@[simp] theorem setChunkLen_mtu (v : U32) : (setChunkLen v s).mtu = s.mtu := rfl
@[simp] theorem setChunkLen_maxSize (v : U32) : (setChunkLen v s).maxSize = s.maxSize := rfl
@[simp] theorem setChunkLen_initLen (v : U32) : (setChunkLen v s).initLen = s.initLen := rfl
@[simp] theorem setChunkLen_fwLen (v : U32) : (setChunkLen v s).fwLen = s.fwLen := rfl
@[simp] theorem setChunkLen_fwPlen (v : U32) : (setChunkLen v s).fwPlen = s.fwPlen := rfl
@[simp] theorem setChunkLen_fwOff (v : U32) : (setChunkLen v s).fwOff = s.fwOff := rfl
@[simp] theorem setChunkLen_chunkLen (v : U32) : (setChunkLen v s).chunkLen = v := rfl
@[simp] theorem setChunkLen_strSpace (v : U32) : (setChunkLen v s).strSpace = s.strSpace := rfl
@[simp] theorem setChunkLen_strBase (v : U32) : (setChunkLen v s).strBase = s.strBase := rfl
@[simp] theorem setChunkLen_strLen (v : U32) : (setChunkLen v s).strLen = s.strLen := rfl
@[simp] theorem setChunkLen_strPtr (v : U32) : (setChunkLen v s).strPtr = s.strPtr := rfl
@[simp] theorem setChunkLen_fragMax (v : U32) : (setChunkLen v s).fragMax = s.fragMax := rfl
@[simp] theorem setChunkLen_crcAcc (v : U32) : (setChunkLen v s).crcAcc = s.crcAcc := rfl
@[simp] theorem setChunkLen_txBuf (v : U32) : (setChunkLen v s).txBuf = s.txBuf := rfl
@[simp] theorem setChunkLen_rxBuf (v : U32) : (setChunkLen v s).rxBuf = s.rxBuf := rfl
@[simp] theorem setChunkLen_rxEsc (v : U32) : (setChunkLen v s).rxEsc = s.rxEsc := rfl
@[simp] theorem setChunkLen_awaiting (v : U32) : (setChunkLen v s).awaiting = s.awaiting := rfl
@[simp] theorem setChunkLen_outOp (v : U32) : (setChunkLen v s).outOp = s.outOp := rfl
@[simp] theorem setChunkLen_outShape (v : U32) : (setChunkLen v s).outShape = s.outShape := rfl
@[simp] theorem setChunkLen_rsp (v : U32) : (setChunkLen v s).rsp = s.rsp := rfl
@[simp] theorem setChunkLen_errValid (v : U32) : (setChunkLen v s).errValid = s.errValid := rfl
@[simp] theorem setChunkLen_err (v : U32) : (setChunkLen v s).err = s.err := rfl
@[simp] theorem setChunkLen_cfg (v : U32) : (setChunkLen v s).cfg = s.cfg := rfl
@[simp] theorem setChunkLen_initMem (v : U32) : (setChunkLen v s).initMem = s.initMem := rfl
@[simp] theorem setChunkLen_fwMem (v : U32) : (setChunkLen v s).fwMem = s.fwMem := rfl
@[simp] theorem setChunkLen_rx (v : U32) : (setChunkLen v s).rx = s.rx := rfl
@[simp] theorem setChunkLen_tx (v : U32) : (setChunkLen v s).tx = s.tx := rfl
@[simp] theorem setChunkLen_txLog (v : U32) : (setChunkLen v s).txLog = s.txLog := rfl
@[simp] theorem setChunkLen_cmd (v : U32) : (setChunkLen v s).cmd = s.cmd := rfl
@[simp] theorem setChunkLen_ready (v : U32) : (setChunkLen v s).ready = s.ready := rfl
@[simp] theorem setChunkLen_phase (v : U32) : (setChunkLen v s).phase = s.phase := rfl

/-! ## `latchStart`: R252 -/

@[simp] theorem latchStart_seq (c : StartCmd) : (latchStart c s).seq = s.seq := rfl
@[simp] theorem latchStart_upc (c : StartCmd) : (latchStart c s).upc = s.upc := rfl
@[simp] theorem latchStart_mtu (c : StartCmd) : (latchStart c s).mtu = s.mtu := rfl
@[simp] theorem latchStart_maxSize (c : StartCmd) : (latchStart c s).maxSize = s.maxSize := rfl
@[simp] theorem latchStart_initLen (c : StartCmd) :
    (latchStart c s).initLen = latchLength c.initBytes.length := rfl
@[simp] theorem latchStart_fwLen (c : StartCmd) : (latchStart c s).fwLen = latchLength c.fwBytes.length := rfl
@[simp] theorem latchStart_fwPlen (c : StartCmd) :
    (latchStart c s).fwPlen = latchLength (paddedLength s.cfg c.fwBytes.length) := rfl
@[simp] theorem latchStart_fwOff (c : StartCmd) : (latchStart c s).fwOff = s.fwOff := rfl
@[simp] theorem latchStart_chunkLen (c : StartCmd) : (latchStart c s).chunkLen = s.chunkLen := rfl
@[simp] theorem latchStart_strSpace (c : StartCmd) : (latchStart c s).strSpace = s.strSpace := rfl
@[simp] theorem latchStart_strBase (c : StartCmd) : (latchStart c s).strBase = s.strBase := rfl
@[simp] theorem latchStart_strLen (c : StartCmd) : (latchStart c s).strLen = s.strLen := rfl
@[simp] theorem latchStart_strPtr (c : StartCmd) : (latchStart c s).strPtr = s.strPtr := rfl
@[simp] theorem latchStart_fragMax (c : StartCmd) : (latchStart c s).fragMax = s.fragMax := rfl
@[simp] theorem latchStart_crcAcc (c : StartCmd) : (latchStart c s).crcAcc = s.crcAcc := rfl
@[simp] theorem latchStart_txBuf (c : StartCmd) : (latchStart c s).txBuf = s.txBuf := rfl
@[simp] theorem latchStart_rxBuf (c : StartCmd) : (latchStart c s).rxBuf = s.rxBuf := rfl
@[simp] theorem latchStart_rxEsc (c : StartCmd) : (latchStart c s).rxEsc = s.rxEsc := rfl
@[simp] theorem latchStart_awaiting (c : StartCmd) : (latchStart c s).awaiting = s.awaiting := rfl
@[simp] theorem latchStart_outOp (c : StartCmd) : (latchStart c s).outOp = s.outOp := rfl
@[simp] theorem latchStart_outShape (c : StartCmd) : (latchStart c s).outShape = s.outShape := rfl
@[simp] theorem latchStart_rsp (c : StartCmd) : (latchStart c s).rsp = s.rsp := rfl
@[simp] theorem latchStart_errValid (c : StartCmd) : (latchStart c s).errValid = s.errValid := rfl
@[simp] theorem latchStart_err (c : StartCmd) : (latchStart c s).err = s.err := rfl
@[simp] theorem latchStart_cfg (c : StartCmd) : (latchStart c s).cfg = s.cfg := rfl
@[simp] theorem latchStart_initMem (c : StartCmd) : (latchStart c s).initMem = c.initBytes := rfl
@[simp] theorem latchStart_fwMem (c : StartCmd) : (latchStart c s).fwMem = c.fwBytes := rfl
@[simp] theorem latchStart_rx (c : StartCmd) : (latchStart c s).rx = s.rx := rfl
@[simp] theorem latchStart_tx (c : StartCmd) : (latchStart c s).tx = s.tx := rfl
@[simp] theorem latchStart_txLog (c : StartCmd) : (latchStart c s).txLog = s.txLog := rfl
@[simp] theorem latchStart_cmd (c : StartCmd) : (latchStart c s).cmd = none := rfl
@[simp] theorem latchStart_ready (c : StartCmd) : (latchStart c s).ready = s.ready := rfl
@[simp] theorem latchStart_phase (c : StartCmd) : (latchStart c s).phase = s.phase := rfl

/-! ## `sendEncode`: SEND, first step (R211) -/

@[simp] theorem sendEncode_seq (r : Request) : (sendEncode r s).seq = s.seq := rfl
@[simp] theorem sendEncode_upc (r : Request) : (sendEncode r s).upc = s.upc := rfl
@[simp] theorem sendEncode_mtu (r : Request) : (sendEncode r s).mtu = s.mtu := rfl
@[simp] theorem sendEncode_maxSize (r : Request) : (sendEncode r s).maxSize = s.maxSize := rfl
@[simp] theorem sendEncode_initLen (r : Request) : (sendEncode r s).initLen = s.initLen := rfl
@[simp] theorem sendEncode_fwLen (r : Request) : (sendEncode r s).fwLen = s.fwLen := rfl
@[simp] theorem sendEncode_fwPlen (r : Request) : (sendEncode r s).fwPlen = s.fwPlen := rfl
@[simp] theorem sendEncode_fwOff (r : Request) : (sendEncode r s).fwOff = s.fwOff := rfl
@[simp] theorem sendEncode_chunkLen (r : Request) : (sendEncode r s).chunkLen = s.chunkLen := rfl
@[simp] theorem sendEncode_strSpace (r : Request) : (sendEncode r s).strSpace = s.strSpace := rfl
@[simp] theorem sendEncode_strBase (r : Request) : (sendEncode r s).strBase = s.strBase := rfl
@[simp] theorem sendEncode_strLen (r : Request) : (sendEncode r s).strLen = s.strLen := rfl
@[simp] theorem sendEncode_strPtr (r : Request) : (sendEncode r s).strPtr = s.strPtr := rfl
@[simp] theorem sendEncode_fragMax (r : Request) : (sendEncode r s).fragMax = s.fragMax := rfl
@[simp] theorem sendEncode_crcAcc (r : Request) : (sendEncode r s).crcAcc = s.crcAcc := rfl
@[simp] theorem sendEncode_txBuf (r : Request) :
    (sendEncode r s).txBuf = encodeFrame s.cfg (encReq s.cfg r) [] := rfl
@[simp] theorem sendEncode_rxBuf (r : Request) : (sendEncode r s).rxBuf = s.rxBuf := rfl
@[simp] theorem sendEncode_rxEsc (r : Request) : (sendEncode r s).rxEsc = s.rxEsc := rfl
@[simp] theorem sendEncode_awaiting (r : Request) : (sendEncode r s).awaiting = s.awaiting := rfl
@[simp] theorem sendEncode_outOp (r : Request) : (sendEncode r s).outOp = s.outOp := rfl
@[simp] theorem sendEncode_outShape (r : Request) : (sendEncode r s).outShape = s.outShape := rfl
@[simp] theorem sendEncode_rsp (r : Request) : (sendEncode r s).rsp = s.rsp := rfl
@[simp] theorem sendEncode_errValid (r : Request) : (sendEncode r s).errValid = s.errValid := rfl
@[simp] theorem sendEncode_err (r : Request) : (sendEncode r s).err = s.err := rfl
@[simp] theorem sendEncode_cfg (r : Request) : (sendEncode r s).cfg = s.cfg := rfl
@[simp] theorem sendEncode_initMem (r : Request) : (sendEncode r s).initMem = s.initMem := rfl
@[simp] theorem sendEncode_fwMem (r : Request) : (sendEncode r s).fwMem = s.fwMem := rfl
@[simp] theorem sendEncode_rx (r : Request) : (sendEncode r s).rx = s.rx := rfl
@[simp] theorem sendEncode_tx (r : Request) : (sendEncode r s).tx = s.tx := rfl
@[simp] theorem sendEncode_txLog (r : Request) : (sendEncode r s).txLog = s.txLog := rfl
@[simp] theorem sendEncode_cmd (r : Request) : (sendEncode r s).cmd = s.cmd := rfl
@[simp] theorem sendEncode_ready (r : Request) : (sendEncode r s).ready = s.ready := rfl
@[simp] theorem sendEncode_phase (r : Request) : (sendEncode r s).phase = .write r := rfl

/-! ## `encodeOnly`: ENC_REQ alone (R160, R162) -/

@[simp] theorem encodeOnly_seq (r : Request) : (encodeOnly r s).seq = s.seq := rfl
@[simp] theorem encodeOnly_upc (r : Request) : (encodeOnly r s).upc = s.upc := rfl
@[simp] theorem encodeOnly_mtu (r : Request) : (encodeOnly r s).mtu = s.mtu := rfl
@[simp] theorem encodeOnly_maxSize (r : Request) : (encodeOnly r s).maxSize = s.maxSize := rfl
@[simp] theorem encodeOnly_initLen (r : Request) : (encodeOnly r s).initLen = s.initLen := rfl
@[simp] theorem encodeOnly_fwLen (r : Request) : (encodeOnly r s).fwLen = s.fwLen := rfl
@[simp] theorem encodeOnly_fwPlen (r : Request) : (encodeOnly r s).fwPlen = s.fwPlen := rfl
@[simp] theorem encodeOnly_fwOff (r : Request) : (encodeOnly r s).fwOff = s.fwOff := rfl
@[simp] theorem encodeOnly_chunkLen (r : Request) : (encodeOnly r s).chunkLen = s.chunkLen := rfl
@[simp] theorem encodeOnly_strSpace (r : Request) : (encodeOnly r s).strSpace = s.strSpace := rfl
@[simp] theorem encodeOnly_strBase (r : Request) : (encodeOnly r s).strBase = s.strBase := rfl
@[simp] theorem encodeOnly_strLen (r : Request) : (encodeOnly r s).strLen = s.strLen := rfl
@[simp] theorem encodeOnly_strPtr (r : Request) : (encodeOnly r s).strPtr = s.strPtr := rfl
@[simp] theorem encodeOnly_fragMax (r : Request) : (encodeOnly r s).fragMax = s.fragMax := rfl
@[simp] theorem encodeOnly_crcAcc (r : Request) : (encodeOnly r s).crcAcc = s.crcAcc := rfl
@[simp] theorem encodeOnly_txBuf (r : Request) : (encodeOnly r s).txBuf = s.txBuf := rfl
@[simp] theorem encodeOnly_rxBuf (r : Request) : (encodeOnly r s).rxBuf = s.rxBuf := rfl
@[simp] theorem encodeOnly_rxEsc (r : Request) : (encodeOnly r s).rxEsc = s.rxEsc := rfl
@[simp] theorem encodeOnly_awaiting (r : Request) : (encodeOnly r s).awaiting = s.awaiting := rfl
@[simp] theorem encodeOnly_outOp (r : Request) : (encodeOnly r s).outOp = s.outOp := rfl
@[simp] theorem encodeOnly_outShape (r : Request) : (encodeOnly r s).outShape = s.outShape := rfl
@[simp] theorem encodeOnly_rsp (r : Request) : (encodeOnly r s).rsp = s.rsp := rfl
@[simp] theorem encodeOnly_errValid (r : Request) : (encodeOnly r s).errValid = s.errValid := rfl
@[simp] theorem encodeOnly_err (r : Request) : (encodeOnly r s).err = s.err := rfl
@[simp] theorem encodeOnly_cfg (r : Request) : (encodeOnly r s).cfg = s.cfg := rfl
@[simp] theorem encodeOnly_initMem (r : Request) : (encodeOnly r s).initMem = s.initMem := rfl
@[simp] theorem encodeOnly_fwMem (r : Request) : (encodeOnly r s).fwMem = s.fwMem := rfl
@[simp] theorem encodeOnly_rx (r : Request) : (encodeOnly r s).rx = s.rx := rfl
@[simp] theorem encodeOnly_tx (r : Request) : (encodeOnly r s).tx = s.tx := rfl
@[simp] theorem encodeOnly_txLog (r : Request) : (encodeOnly r s).txLog = s.txLog := rfl
@[simp] theorem encodeOnly_cmd (r : Request) : (encodeOnly r s).cmd = s.cmd := rfl
@[simp] theorem encodeOnly_ready (r : Request) : (encodeOnly r s).ready = s.ready := rfl
@[simp] theorem encodeOnly_phase (r : Request) : (encodeOnly r s).phase = .encoded (encReq s.cfg r) := rfl

/-! ## `logWrite`: bytes reach the log -/

@[simp] theorem logWrite_seq (n : Nat) (l : List TxResult) : (logWrite n l s).seq = s.seq := rfl
@[simp] theorem logWrite_upc (n : Nat) (l : List TxResult) : (logWrite n l s).upc = s.upc := rfl
@[simp] theorem logWrite_mtu (n : Nat) (l : List TxResult) : (logWrite n l s).mtu = s.mtu := rfl
@[simp] theorem logWrite_maxSize (n : Nat) (l : List TxResult) : (logWrite n l s).maxSize = s.maxSize := rfl
@[simp] theorem logWrite_initLen (n : Nat) (l : List TxResult) : (logWrite n l s).initLen = s.initLen := rfl
@[simp] theorem logWrite_fwLen (n : Nat) (l : List TxResult) : (logWrite n l s).fwLen = s.fwLen := rfl
@[simp] theorem logWrite_fwPlen (n : Nat) (l : List TxResult) : (logWrite n l s).fwPlen = s.fwPlen := rfl
@[simp] theorem logWrite_fwOff (n : Nat) (l : List TxResult) : (logWrite n l s).fwOff = s.fwOff := rfl
@[simp] theorem logWrite_chunkLen (n : Nat) (l : List TxResult) :
    (logWrite n l s).chunkLen = s.chunkLen := rfl
@[simp] theorem logWrite_strSpace (n : Nat) (l : List TxResult) :
    (logWrite n l s).strSpace = s.strSpace := rfl
@[simp] theorem logWrite_strBase (n : Nat) (l : List TxResult) : (logWrite n l s).strBase = s.strBase := rfl
@[simp] theorem logWrite_strLen (n : Nat) (l : List TxResult) : (logWrite n l s).strLen = s.strLen := rfl
@[simp] theorem logWrite_strPtr (n : Nat) (l : List TxResult) : (logWrite n l s).strPtr = s.strPtr := rfl
@[simp] theorem logWrite_fragMax (n : Nat) (l : List TxResult) : (logWrite n l s).fragMax = s.fragMax := rfl
@[simp] theorem logWrite_crcAcc (n : Nat) (l : List TxResult) : (logWrite n l s).crcAcc = s.crcAcc := rfl
@[simp] theorem logWrite_txBuf (n : Nat) (l : List TxResult) : (logWrite n l s).txBuf = s.txBuf := rfl
@[simp] theorem logWrite_rxBuf (n : Nat) (l : List TxResult) : (logWrite n l s).rxBuf = s.rxBuf := rfl
@[simp] theorem logWrite_rxEsc (n : Nat) (l : List TxResult) : (logWrite n l s).rxEsc = s.rxEsc := rfl
@[simp] theorem logWrite_awaiting (n : Nat) (l : List TxResult) :
    (logWrite n l s).awaiting = s.awaiting := rfl
@[simp] theorem logWrite_outOp (n : Nat) (l : List TxResult) : (logWrite n l s).outOp = s.outOp := rfl
@[simp] theorem logWrite_outShape (n : Nat) (l : List TxResult) :
    (logWrite n l s).outShape = s.outShape := rfl
@[simp] theorem logWrite_rsp (n : Nat) (l : List TxResult) : (logWrite n l s).rsp = s.rsp := rfl
@[simp] theorem logWrite_errValid (n : Nat) (l : List TxResult) :
    (logWrite n l s).errValid = s.errValid := rfl
@[simp] theorem logWrite_err (n : Nat) (l : List TxResult) : (logWrite n l s).err = s.err := rfl
@[simp] theorem logWrite_cfg (n : Nat) (l : List TxResult) : (logWrite n l s).cfg = s.cfg := rfl
@[simp] theorem logWrite_initMem (n : Nat) (l : List TxResult) : (logWrite n l s).initMem = s.initMem := rfl
@[simp] theorem logWrite_fwMem (n : Nat) (l : List TxResult) : (logWrite n l s).fwMem = s.fwMem := rfl
@[simp] theorem logWrite_rx (n : Nat) (l : List TxResult) : (logWrite n l s).rx = s.rx := rfl
@[simp] theorem logWrite_tx (n : Nat) (l : List TxResult) : (logWrite n l s).tx = l := rfl
@[simp] theorem logWrite_txLog (n : Nat) (l : List TxResult) :
    (logWrite n l s).txLog = s.txLog ++ (s.txBuf.take n).map TxMark.byte := rfl
@[simp] theorem logWrite_cmd (n : Nat) (l : List TxResult) : (logWrite n l s).cmd = s.cmd := rfl
@[simp] theorem logWrite_ready (n : Nat) (l : List TxResult) : (logWrite n l s).ready = s.ready := rfl
@[simp] theorem logWrite_phase (n : Nat) (l : List TxResult) : (logWrite n l s).phase = s.phase := rfl

/-! ## `logFlush`: a flush is marked -/

@[simp] theorem logFlush_seq (m : TxMark) (l : List TxResult) : (logFlush m l s).seq = s.seq := rfl
@[simp] theorem logFlush_upc (m : TxMark) (l : List TxResult) : (logFlush m l s).upc = s.upc := rfl
@[simp] theorem logFlush_mtu (m : TxMark) (l : List TxResult) : (logFlush m l s).mtu = s.mtu := rfl
@[simp] theorem logFlush_maxSize (m : TxMark) (l : List TxResult) :
    (logFlush m l s).maxSize = s.maxSize := rfl
@[simp] theorem logFlush_initLen (m : TxMark) (l : List TxResult) :
    (logFlush m l s).initLen = s.initLen := rfl
@[simp] theorem logFlush_fwLen (m : TxMark) (l : List TxResult) : (logFlush m l s).fwLen = s.fwLen := rfl
@[simp] theorem logFlush_fwPlen (m : TxMark) (l : List TxResult) : (logFlush m l s).fwPlen = s.fwPlen := rfl
@[simp] theorem logFlush_fwOff (m : TxMark) (l : List TxResult) : (logFlush m l s).fwOff = s.fwOff := rfl
@[simp] theorem logFlush_chunkLen (m : TxMark) (l : List TxResult) :
    (logFlush m l s).chunkLen = s.chunkLen := rfl
@[simp] theorem logFlush_strSpace (m : TxMark) (l : List TxResult) :
    (logFlush m l s).strSpace = s.strSpace := rfl
@[simp] theorem logFlush_strBase (m : TxMark) (l : List TxResult) :
    (logFlush m l s).strBase = s.strBase := rfl
@[simp] theorem logFlush_strLen (m : TxMark) (l : List TxResult) : (logFlush m l s).strLen = s.strLen := rfl
@[simp] theorem logFlush_strPtr (m : TxMark) (l : List TxResult) : (logFlush m l s).strPtr = s.strPtr := rfl
@[simp] theorem logFlush_fragMax (m : TxMark) (l : List TxResult) :
    (logFlush m l s).fragMax = s.fragMax := rfl
@[simp] theorem logFlush_crcAcc (m : TxMark) (l : List TxResult) : (logFlush m l s).crcAcc = s.crcAcc := rfl
@[simp] theorem logFlush_txBuf (m : TxMark) (l : List TxResult) : (logFlush m l s).txBuf = s.txBuf := rfl
@[simp] theorem logFlush_rxBuf (m : TxMark) (l : List TxResult) : (logFlush m l s).rxBuf = s.rxBuf := rfl
@[simp] theorem logFlush_rxEsc (m : TxMark) (l : List TxResult) : (logFlush m l s).rxEsc = s.rxEsc := rfl
@[simp] theorem logFlush_awaiting (m : TxMark) (l : List TxResult) :
    (logFlush m l s).awaiting = s.awaiting := rfl
@[simp] theorem logFlush_outOp (m : TxMark) (l : List TxResult) : (logFlush m l s).outOp = s.outOp := rfl
@[simp] theorem logFlush_outShape (m : TxMark) (l : List TxResult) :
    (logFlush m l s).outShape = s.outShape := rfl
@[simp] theorem logFlush_rsp (m : TxMark) (l : List TxResult) : (logFlush m l s).rsp = s.rsp := rfl
@[simp] theorem logFlush_errValid (m : TxMark) (l : List TxResult) :
    (logFlush m l s).errValid = s.errValid := rfl
@[simp] theorem logFlush_err (m : TxMark) (l : List TxResult) : (logFlush m l s).err = s.err := rfl
@[simp] theorem logFlush_cfg (m : TxMark) (l : List TxResult) : (logFlush m l s).cfg = s.cfg := rfl
@[simp] theorem logFlush_initMem (m : TxMark) (l : List TxResult) :
    (logFlush m l s).initMem = s.initMem := rfl
@[simp] theorem logFlush_fwMem (m : TxMark) (l : List TxResult) : (logFlush m l s).fwMem = s.fwMem := rfl
@[simp] theorem logFlush_rx (m : TxMark) (l : List TxResult) : (logFlush m l s).rx = s.rx := rfl
@[simp] theorem logFlush_tx (m : TxMark) (l : List TxResult) : (logFlush m l s).tx = l := rfl
@[simp] theorem logFlush_txLog (m : TxMark) (l : List TxResult) :
    (logFlush m l s).txLog = s.txLog ++ [m] := rfl
@[simp] theorem logFlush_cmd (m : TxMark) (l : List TxResult) : (logFlush m l s).cmd = s.cmd := rfl
@[simp] theorem logFlush_ready (m : TxMark) (l : List TxResult) : (logFlush m l s).ready = s.ready := rfl
@[simp] theorem logFlush_phase (m : TxMark) (l : List TxResult) : (logFlush m l s).phase = s.phase := rfl

/-! ## `beginDecode`: entry of DECODE_FRAME (R136) -/

@[simp] theorem beginDecode_seq : (beginDecode s).seq = s.seq := rfl
@[simp] theorem beginDecode_upc : (beginDecode s).upc = s.upc := rfl
@[simp] theorem beginDecode_mtu : (beginDecode s).mtu = s.mtu := rfl
@[simp] theorem beginDecode_maxSize : (beginDecode s).maxSize = s.maxSize := rfl
@[simp] theorem beginDecode_initLen : (beginDecode s).initLen = s.initLen := rfl
@[simp] theorem beginDecode_fwLen : (beginDecode s).fwLen = s.fwLen := rfl
@[simp] theorem beginDecode_fwPlen : (beginDecode s).fwPlen = s.fwPlen := rfl
@[simp] theorem beginDecode_fwOff : (beginDecode s).fwOff = s.fwOff := rfl
@[simp] theorem beginDecode_chunkLen : (beginDecode s).chunkLen = s.chunkLen := rfl
@[simp] theorem beginDecode_strSpace : (beginDecode s).strSpace = s.strSpace := rfl
@[simp] theorem beginDecode_strBase : (beginDecode s).strBase = s.strBase := rfl
@[simp] theorem beginDecode_strLen : (beginDecode s).strLen = s.strLen := rfl
@[simp] theorem beginDecode_strPtr : (beginDecode s).strPtr = s.strPtr := rfl
@[simp] theorem beginDecode_fragMax : (beginDecode s).fragMax = s.fragMax := rfl
@[simp] theorem beginDecode_crcAcc : (beginDecode s).crcAcc = s.crcAcc := rfl
@[simp] theorem beginDecode_txBuf : (beginDecode s).txBuf = s.txBuf := rfl
@[simp] theorem beginDecode_rxBuf : (beginDecode s).rxBuf = [] := rfl
@[simp] theorem beginDecode_rxEsc : (beginDecode s).rxEsc = false := rfl
@[simp] theorem beginDecode_awaiting : (beginDecode s).awaiting = s.awaiting := rfl
@[simp] theorem beginDecode_outOp : (beginDecode s).outOp = s.outOp := rfl
@[simp] theorem beginDecode_outShape : (beginDecode s).outShape = s.outShape := rfl
@[simp] theorem beginDecode_rsp : (beginDecode s).rsp = s.rsp := rfl
@[simp] theorem beginDecode_errValid : (beginDecode s).errValid = s.errValid := rfl
@[simp] theorem beginDecode_err : (beginDecode s).err = s.err := rfl
@[simp] theorem beginDecode_cfg : (beginDecode s).cfg = s.cfg := rfl
@[simp] theorem beginDecode_initMem : (beginDecode s).initMem = s.initMem := rfl
@[simp] theorem beginDecode_fwMem : (beginDecode s).fwMem = s.fwMem := rfl
@[simp] theorem beginDecode_rx : (beginDecode s).rx = s.rx := rfl
@[simp] theorem beginDecode_tx : (beginDecode s).tx = s.tx := rfl
@[simp] theorem beginDecode_txLog : (beginDecode s).txLog = s.txLog := rfl
@[simp] theorem beginDecode_cmd : (beginDecode s).cmd = s.cmd := rfl
@[simp] theorem beginDecode_ready : (beginDecode s).ready = s.ready := rfl
@[simp] theorem beginDecode_phase : (beginDecode s).phase = .recv := rfl

/-! ## `setAwaiting`: XACT has flushed (R214) -/

@[simp] theorem setAwaiting_seq (r : Request) : (setAwaiting r s).seq = s.seq := rfl
@[simp] theorem setAwaiting_upc (r : Request) : (setAwaiting r s).upc = s.upc := rfl
@[simp] theorem setAwaiting_mtu (r : Request) : (setAwaiting r s).mtu = s.mtu := rfl
@[simp] theorem setAwaiting_maxSize (r : Request) : (setAwaiting r s).maxSize = s.maxSize := rfl
@[simp] theorem setAwaiting_initLen (r : Request) : (setAwaiting r s).initLen = s.initLen := rfl
@[simp] theorem setAwaiting_fwLen (r : Request) : (setAwaiting r s).fwLen = s.fwLen := rfl
@[simp] theorem setAwaiting_fwPlen (r : Request) : (setAwaiting r s).fwPlen = s.fwPlen := rfl
@[simp] theorem setAwaiting_fwOff (r : Request) : (setAwaiting r s).fwOff = s.fwOff := rfl
@[simp] theorem setAwaiting_chunkLen (r : Request) : (setAwaiting r s).chunkLen = s.chunkLen := rfl
@[simp] theorem setAwaiting_strSpace (r : Request) : (setAwaiting r s).strSpace = s.strSpace := rfl
@[simp] theorem setAwaiting_strBase (r : Request) : (setAwaiting r s).strBase = s.strBase := rfl
@[simp] theorem setAwaiting_strLen (r : Request) : (setAwaiting r s).strLen = s.strLen := rfl
@[simp] theorem setAwaiting_strPtr (r : Request) : (setAwaiting r s).strPtr = s.strPtr := rfl
@[simp] theorem setAwaiting_fragMax (r : Request) : (setAwaiting r s).fragMax = s.fragMax := rfl
@[simp] theorem setAwaiting_crcAcc (r : Request) : (setAwaiting r s).crcAcc = s.crcAcc := rfl
@[simp] theorem setAwaiting_txBuf (r : Request) : (setAwaiting r s).txBuf = s.txBuf := rfl
@[simp] theorem setAwaiting_rxBuf (r : Request) : (setAwaiting r s).rxBuf = s.rxBuf := rfl
@[simp] theorem setAwaiting_rxEsc (r : Request) : (setAwaiting r s).rxEsc = s.rxEsc := rfl
@[simp] theorem setAwaiting_awaiting (r : Request) : (setAwaiting r s).awaiting = true := rfl
@[simp] theorem setAwaiting_outOp (r : Request) : (setAwaiting r s).outOp = opcodeOf s.cfg r := rfl
@[simp] theorem setAwaiting_outShape (r : Request) : (setAwaiting r s).outShape = shapeFor r := rfl
@[simp] theorem setAwaiting_rsp (r : Request) : (setAwaiting r s).rsp = s.rsp := rfl
@[simp] theorem setAwaiting_errValid (r : Request) : (setAwaiting r s).errValid = s.errValid := rfl
@[simp] theorem setAwaiting_err (r : Request) : (setAwaiting r s).err = s.err := rfl
@[simp] theorem setAwaiting_cfg (r : Request) : (setAwaiting r s).cfg = s.cfg := rfl
@[simp] theorem setAwaiting_initMem (r : Request) : (setAwaiting r s).initMem = s.initMem := rfl
@[simp] theorem setAwaiting_fwMem (r : Request) : (setAwaiting r s).fwMem = s.fwMem := rfl
@[simp] theorem setAwaiting_rx (r : Request) : (setAwaiting r s).rx = s.rx := rfl
@[simp] theorem setAwaiting_tx (r : Request) : (setAwaiting r s).tx = s.tx := rfl
@[simp] theorem setAwaiting_txLog (r : Request) : (setAwaiting r s).txLog = s.txLog := rfl
@[simp] theorem setAwaiting_cmd (r : Request) : (setAwaiting r s).cmd = s.cmd := rfl
@[simp] theorem setAwaiting_ready (r : Request) : (setAwaiting r s).ready = s.ready := rfl
@[simp] theorem setAwaiting_phase (r : Request) : (setAwaiting r s).phase = s.phase := rfl

/-! ## `clearAwaiting`: XACT returns (R214) -/

@[simp] theorem clearAwaiting_seq : (clearAwaiting s).seq = s.seq := rfl
@[simp] theorem clearAwaiting_upc : (clearAwaiting s).upc = s.upc := rfl
@[simp] theorem clearAwaiting_mtu : (clearAwaiting s).mtu = s.mtu := rfl
@[simp] theorem clearAwaiting_maxSize : (clearAwaiting s).maxSize = s.maxSize := rfl
@[simp] theorem clearAwaiting_initLen : (clearAwaiting s).initLen = s.initLen := rfl
@[simp] theorem clearAwaiting_fwLen : (clearAwaiting s).fwLen = s.fwLen := rfl
@[simp] theorem clearAwaiting_fwPlen : (clearAwaiting s).fwPlen = s.fwPlen := rfl
@[simp] theorem clearAwaiting_fwOff : (clearAwaiting s).fwOff = s.fwOff := rfl
@[simp] theorem clearAwaiting_chunkLen : (clearAwaiting s).chunkLen = s.chunkLen := rfl
@[simp] theorem clearAwaiting_strSpace : (clearAwaiting s).strSpace = s.strSpace := rfl
@[simp] theorem clearAwaiting_strBase : (clearAwaiting s).strBase = s.strBase := rfl
@[simp] theorem clearAwaiting_strLen : (clearAwaiting s).strLen = s.strLen := rfl
@[simp] theorem clearAwaiting_strPtr : (clearAwaiting s).strPtr = s.strPtr := rfl
@[simp] theorem clearAwaiting_fragMax : (clearAwaiting s).fragMax = s.fragMax := rfl
@[simp] theorem clearAwaiting_crcAcc : (clearAwaiting s).crcAcc = s.crcAcc := rfl
@[simp] theorem clearAwaiting_txBuf : (clearAwaiting s).txBuf = s.txBuf := rfl
@[simp] theorem clearAwaiting_rxBuf : (clearAwaiting s).rxBuf = s.rxBuf := rfl
@[simp] theorem clearAwaiting_rxEsc : (clearAwaiting s).rxEsc = s.rxEsc := rfl
@[simp] theorem clearAwaiting_awaiting : (clearAwaiting s).awaiting = false := rfl
@[simp] theorem clearAwaiting_outOp : (clearAwaiting s).outOp = s.outOp := rfl
@[simp] theorem clearAwaiting_outShape : (clearAwaiting s).outShape = s.outShape := rfl
@[simp] theorem clearAwaiting_rsp : (clearAwaiting s).rsp = s.rsp := rfl
@[simp] theorem clearAwaiting_errValid : (clearAwaiting s).errValid = s.errValid := rfl
@[simp] theorem clearAwaiting_err : (clearAwaiting s).err = s.err := rfl
@[simp] theorem clearAwaiting_cfg : (clearAwaiting s).cfg = s.cfg := rfl
@[simp] theorem clearAwaiting_initMem : (clearAwaiting s).initMem = s.initMem := rfl
@[simp] theorem clearAwaiting_fwMem : (clearAwaiting s).fwMem = s.fwMem := rfl
@[simp] theorem clearAwaiting_rx : (clearAwaiting s).rx = s.rx := rfl
@[simp] theorem clearAwaiting_tx : (clearAwaiting s).tx = s.tx := rfl
@[simp] theorem clearAwaiting_txLog : (clearAwaiting s).txLog = s.txLog := rfl
@[simp] theorem clearAwaiting_cmd : (clearAwaiting s).cmd = s.cmd := rfl
@[simp] theorem clearAwaiting_ready : (clearAwaiting s).ready = s.ready := rfl
@[simp] theorem clearAwaiting_phase : (clearAwaiting s).phase = s.phase := rfl

/-! ## `setEsc`: R138 -/

@[simp] theorem setEsc_seq : (setEsc s).seq = s.seq := rfl
@[simp] theorem setEsc_upc : (setEsc s).upc = s.upc := rfl
@[simp] theorem setEsc_mtu : (setEsc s).mtu = s.mtu := rfl
@[simp] theorem setEsc_maxSize : (setEsc s).maxSize = s.maxSize := rfl
@[simp] theorem setEsc_initLen : (setEsc s).initLen = s.initLen := rfl
@[simp] theorem setEsc_fwLen : (setEsc s).fwLen = s.fwLen := rfl
@[simp] theorem setEsc_fwPlen : (setEsc s).fwPlen = s.fwPlen := rfl
@[simp] theorem setEsc_fwOff : (setEsc s).fwOff = s.fwOff := rfl
@[simp] theorem setEsc_chunkLen : (setEsc s).chunkLen = s.chunkLen := rfl
@[simp] theorem setEsc_strSpace : (setEsc s).strSpace = s.strSpace := rfl
@[simp] theorem setEsc_strBase : (setEsc s).strBase = s.strBase := rfl
@[simp] theorem setEsc_strLen : (setEsc s).strLen = s.strLen := rfl
@[simp] theorem setEsc_strPtr : (setEsc s).strPtr = s.strPtr := rfl
@[simp] theorem setEsc_fragMax : (setEsc s).fragMax = s.fragMax := rfl
@[simp] theorem setEsc_crcAcc : (setEsc s).crcAcc = s.crcAcc := rfl
@[simp] theorem setEsc_txBuf : (setEsc s).txBuf = s.txBuf := rfl
@[simp] theorem setEsc_rxBuf : (setEsc s).rxBuf = s.rxBuf := rfl
@[simp] theorem setEsc_rxEsc : (setEsc s).rxEsc = true := rfl
@[simp] theorem setEsc_awaiting : (setEsc s).awaiting = s.awaiting := rfl
@[simp] theorem setEsc_outOp : (setEsc s).outOp = s.outOp := rfl
@[simp] theorem setEsc_outShape : (setEsc s).outShape = s.outShape := rfl
@[simp] theorem setEsc_rsp : (setEsc s).rsp = s.rsp := rfl
@[simp] theorem setEsc_errValid : (setEsc s).errValid = s.errValid := rfl
@[simp] theorem setEsc_err : (setEsc s).err = s.err := rfl
@[simp] theorem setEsc_cfg : (setEsc s).cfg = s.cfg := rfl
@[simp] theorem setEsc_initMem : (setEsc s).initMem = s.initMem := rfl
@[simp] theorem setEsc_fwMem : (setEsc s).fwMem = s.fwMem := rfl
@[simp] theorem setEsc_rx : (setEsc s).rx = s.rx := rfl
@[simp] theorem setEsc_tx : (setEsc s).tx = s.tx := rfl
@[simp] theorem setEsc_txLog : (setEsc s).txLog = s.txLog := rfl
@[simp] theorem setEsc_cmd : (setEsc s).cmd = s.cmd := rfl
@[simp] theorem setEsc_ready : (setEsc s).ready = s.ready := rfl
@[simp] theorem setEsc_phase : (setEsc s).phase = s.phase := rfl

/-! ## `clearEsc`: R140 -/

@[simp] theorem clearEsc_seq : (clearEsc s).seq = s.seq := rfl
@[simp] theorem clearEsc_upc : (clearEsc s).upc = s.upc := rfl
@[simp] theorem clearEsc_mtu : (clearEsc s).mtu = s.mtu := rfl
@[simp] theorem clearEsc_maxSize : (clearEsc s).maxSize = s.maxSize := rfl
@[simp] theorem clearEsc_initLen : (clearEsc s).initLen = s.initLen := rfl
@[simp] theorem clearEsc_fwLen : (clearEsc s).fwLen = s.fwLen := rfl
@[simp] theorem clearEsc_fwPlen : (clearEsc s).fwPlen = s.fwPlen := rfl
@[simp] theorem clearEsc_fwOff : (clearEsc s).fwOff = s.fwOff := rfl
@[simp] theorem clearEsc_chunkLen : (clearEsc s).chunkLen = s.chunkLen := rfl
@[simp] theorem clearEsc_strSpace : (clearEsc s).strSpace = s.strSpace := rfl
@[simp] theorem clearEsc_strBase : (clearEsc s).strBase = s.strBase := rfl
@[simp] theorem clearEsc_strLen : (clearEsc s).strLen = s.strLen := rfl
@[simp] theorem clearEsc_strPtr : (clearEsc s).strPtr = s.strPtr := rfl
@[simp] theorem clearEsc_fragMax : (clearEsc s).fragMax = s.fragMax := rfl
@[simp] theorem clearEsc_crcAcc : (clearEsc s).crcAcc = s.crcAcc := rfl
@[simp] theorem clearEsc_txBuf : (clearEsc s).txBuf = s.txBuf := rfl
@[simp] theorem clearEsc_rxBuf : (clearEsc s).rxBuf = s.rxBuf := rfl
@[simp] theorem clearEsc_rxEsc : (clearEsc s).rxEsc = false := rfl
@[simp] theorem clearEsc_awaiting : (clearEsc s).awaiting = s.awaiting := rfl
@[simp] theorem clearEsc_outOp : (clearEsc s).outOp = s.outOp := rfl
@[simp] theorem clearEsc_outShape : (clearEsc s).outShape = s.outShape := rfl
@[simp] theorem clearEsc_rsp : (clearEsc s).rsp = s.rsp := rfl
@[simp] theorem clearEsc_errValid : (clearEsc s).errValid = s.errValid := rfl
@[simp] theorem clearEsc_err : (clearEsc s).err = s.err := rfl
@[simp] theorem clearEsc_cfg : (clearEsc s).cfg = s.cfg := rfl
@[simp] theorem clearEsc_initMem : (clearEsc s).initMem = s.initMem := rfl
@[simp] theorem clearEsc_fwMem : (clearEsc s).fwMem = s.fwMem := rfl
@[simp] theorem clearEsc_rx : (clearEsc s).rx = s.rx := rfl
@[simp] theorem clearEsc_tx : (clearEsc s).tx = s.tx := rfl
@[simp] theorem clearEsc_txLog : (clearEsc s).txLog = s.txLog := rfl
@[simp] theorem clearEsc_cmd : (clearEsc s).cmd = s.cmd := rfl
@[simp] theorem clearEsc_ready : (clearEsc s).ready = s.ready := rfl
@[simp] theorem clearEsc_phase : (clearEsc s).phase = s.phase := rfl

/-! ## `pushRx`: R142 -/

@[simp] theorem pushRx_seq (b : Byte) : (pushRx b s).seq = s.seq := rfl
@[simp] theorem pushRx_upc (b : Byte) : (pushRx b s).upc = s.upc := rfl
@[simp] theorem pushRx_mtu (b : Byte) : (pushRx b s).mtu = s.mtu := rfl
@[simp] theorem pushRx_maxSize (b : Byte) : (pushRx b s).maxSize = s.maxSize := rfl
@[simp] theorem pushRx_initLen (b : Byte) : (pushRx b s).initLen = s.initLen := rfl
@[simp] theorem pushRx_fwLen (b : Byte) : (pushRx b s).fwLen = s.fwLen := rfl
@[simp] theorem pushRx_fwPlen (b : Byte) : (pushRx b s).fwPlen = s.fwPlen := rfl
@[simp] theorem pushRx_fwOff (b : Byte) : (pushRx b s).fwOff = s.fwOff := rfl
@[simp] theorem pushRx_chunkLen (b : Byte) : (pushRx b s).chunkLen = s.chunkLen := rfl
@[simp] theorem pushRx_strSpace (b : Byte) : (pushRx b s).strSpace = s.strSpace := rfl
@[simp] theorem pushRx_strBase (b : Byte) : (pushRx b s).strBase = s.strBase := rfl
@[simp] theorem pushRx_strLen (b : Byte) : (pushRx b s).strLen = s.strLen := rfl
@[simp] theorem pushRx_strPtr (b : Byte) : (pushRx b s).strPtr = s.strPtr := rfl
@[simp] theorem pushRx_fragMax (b : Byte) : (pushRx b s).fragMax = s.fragMax := rfl
@[simp] theorem pushRx_crcAcc (b : Byte) : (pushRx b s).crcAcc = s.crcAcc := rfl
@[simp] theorem pushRx_txBuf (b : Byte) : (pushRx b s).txBuf = s.txBuf := rfl
@[simp] theorem pushRx_rxBuf (b : Byte) : (pushRx b s).rxBuf = s.rxBuf ++ [b] := rfl
@[simp] theorem pushRx_rxEsc (b : Byte) : (pushRx b s).rxEsc = s.rxEsc := rfl
@[simp] theorem pushRx_awaiting (b : Byte) : (pushRx b s).awaiting = s.awaiting := rfl
@[simp] theorem pushRx_outOp (b : Byte) : (pushRx b s).outOp = s.outOp := rfl
@[simp] theorem pushRx_outShape (b : Byte) : (pushRx b s).outShape = s.outShape := rfl
@[simp] theorem pushRx_rsp (b : Byte) : (pushRx b s).rsp = s.rsp := rfl
@[simp] theorem pushRx_errValid (b : Byte) : (pushRx b s).errValid = s.errValid := rfl
@[simp] theorem pushRx_err (b : Byte) : (pushRx b s).err = s.err := rfl
@[simp] theorem pushRx_cfg (b : Byte) : (pushRx b s).cfg = s.cfg := rfl
@[simp] theorem pushRx_initMem (b : Byte) : (pushRx b s).initMem = s.initMem := rfl
@[simp] theorem pushRx_fwMem (b : Byte) : (pushRx b s).fwMem = s.fwMem := rfl
@[simp] theorem pushRx_rx (b : Byte) : (pushRx b s).rx = s.rx := rfl
@[simp] theorem pushRx_tx (b : Byte) : (pushRx b s).tx = s.tx := rfl
@[simp] theorem pushRx_txLog (b : Byte) : (pushRx b s).txLog = s.txLog := rfl
@[simp] theorem pushRx_cmd (b : Byte) : (pushRx b s).cmd = s.cmd := rfl
@[simp] theorem pushRx_ready (b : Byte) : (pushRx b s).ready = s.ready := rfl
@[simp] theorem pushRx_phase (b : Byte) : (pushRx b s).phase = s.phase := rfl

/-! ## `endFrame`: R137 -/

@[simp] theorem endFrame_seq : (endFrame s).seq = s.seq := rfl
@[simp] theorem endFrame_upc : (endFrame s).upc = s.upc := rfl
@[simp] theorem endFrame_mtu : (endFrame s).mtu = s.mtu := rfl
@[simp] theorem endFrame_maxSize : (endFrame s).maxSize = s.maxSize := rfl
@[simp] theorem endFrame_initLen : (endFrame s).initLen = s.initLen := rfl
@[simp] theorem endFrame_fwLen : (endFrame s).fwLen = s.fwLen := rfl
@[simp] theorem endFrame_fwPlen : (endFrame s).fwPlen = s.fwPlen := rfl
@[simp] theorem endFrame_fwOff : (endFrame s).fwOff = s.fwOff := rfl
@[simp] theorem endFrame_chunkLen : (endFrame s).chunkLen = s.chunkLen := rfl
@[simp] theorem endFrame_strSpace : (endFrame s).strSpace = s.strSpace := rfl
@[simp] theorem endFrame_strBase : (endFrame s).strBase = s.strBase := rfl
@[simp] theorem endFrame_strLen : (endFrame s).strLen = s.strLen := rfl
@[simp] theorem endFrame_strPtr : (endFrame s).strPtr = s.strPtr := rfl
@[simp] theorem endFrame_fragMax : (endFrame s).fragMax = s.fragMax := rfl
@[simp] theorem endFrame_crcAcc : (endFrame s).crcAcc = s.crcAcc := rfl
@[simp] theorem endFrame_txBuf : (endFrame s).txBuf = s.txBuf := rfl
@[simp] theorem endFrame_rxBuf : (endFrame s).rxBuf = s.rxBuf := rfl
@[simp] theorem endFrame_rxEsc : (endFrame s).rxEsc = s.rxEsc := rfl
@[simp] theorem endFrame_awaiting : (endFrame s).awaiting = s.awaiting := rfl
@[simp] theorem endFrame_outOp : (endFrame s).outOp = s.outOp := rfl
@[simp] theorem endFrame_outShape : (endFrame s).outShape = s.outShape := rfl
@[simp] theorem endFrame_rsp : (endFrame s).rsp = s.rsp := rfl
@[simp] theorem endFrame_errValid : (endFrame s).errValid = s.errValid := rfl
@[simp] theorem endFrame_err : (endFrame s).err = s.err := rfl
@[simp] theorem endFrame_cfg : (endFrame s).cfg = s.cfg := rfl
@[simp] theorem endFrame_initMem : (endFrame s).initMem = s.initMem := rfl
@[simp] theorem endFrame_fwMem : (endFrame s).fwMem = s.fwMem := rfl
@[simp] theorem endFrame_rx : (endFrame s).rx = s.rx := rfl
@[simp] theorem endFrame_tx : (endFrame s).tx = s.tx := rfl
@[simp] theorem endFrame_txLog : (endFrame s).txLog = s.txLog := rfl
@[simp] theorem endFrame_cmd : (endFrame s).cmd = s.cmd := rfl
@[simp] theorem endFrame_ready : (endFrame s).ready = s.ready := rfl
@[simp] theorem endFrame_phase : (endFrame s).phase = .parse := rfl

/-! ## `popRx`: an event is consumed (R71) -/

@[simp] theorem popRx_seq (l : List RxEvent) : (popRx l s).seq = s.seq := rfl
@[simp] theorem popRx_upc (l : List RxEvent) : (popRx l s).upc = s.upc := rfl
@[simp] theorem popRx_mtu (l : List RxEvent) : (popRx l s).mtu = s.mtu := rfl
@[simp] theorem popRx_maxSize (l : List RxEvent) : (popRx l s).maxSize = s.maxSize := rfl
@[simp] theorem popRx_initLen (l : List RxEvent) : (popRx l s).initLen = s.initLen := rfl
@[simp] theorem popRx_fwLen (l : List RxEvent) : (popRx l s).fwLen = s.fwLen := rfl
@[simp] theorem popRx_fwPlen (l : List RxEvent) : (popRx l s).fwPlen = s.fwPlen := rfl
@[simp] theorem popRx_fwOff (l : List RxEvent) : (popRx l s).fwOff = s.fwOff := rfl
@[simp] theorem popRx_chunkLen (l : List RxEvent) : (popRx l s).chunkLen = s.chunkLen := rfl
@[simp] theorem popRx_strSpace (l : List RxEvent) : (popRx l s).strSpace = s.strSpace := rfl
@[simp] theorem popRx_strBase (l : List RxEvent) : (popRx l s).strBase = s.strBase := rfl
@[simp] theorem popRx_strLen (l : List RxEvent) : (popRx l s).strLen = s.strLen := rfl
@[simp] theorem popRx_strPtr (l : List RxEvent) : (popRx l s).strPtr = s.strPtr := rfl
@[simp] theorem popRx_fragMax (l : List RxEvent) : (popRx l s).fragMax = s.fragMax := rfl
@[simp] theorem popRx_crcAcc (l : List RxEvent) : (popRx l s).crcAcc = s.crcAcc := rfl
@[simp] theorem popRx_txBuf (l : List RxEvent) : (popRx l s).txBuf = s.txBuf := rfl
@[simp] theorem popRx_rxBuf (l : List RxEvent) : (popRx l s).rxBuf = s.rxBuf := rfl
@[simp] theorem popRx_rxEsc (l : List RxEvent) : (popRx l s).rxEsc = s.rxEsc := rfl
@[simp] theorem popRx_awaiting (l : List RxEvent) : (popRx l s).awaiting = s.awaiting := rfl
@[simp] theorem popRx_outOp (l : List RxEvent) : (popRx l s).outOp = s.outOp := rfl
@[simp] theorem popRx_outShape (l : List RxEvent) : (popRx l s).outShape = s.outShape := rfl
@[simp] theorem popRx_rsp (l : List RxEvent) : (popRx l s).rsp = s.rsp := rfl
@[simp] theorem popRx_errValid (l : List RxEvent) : (popRx l s).errValid = s.errValid := rfl
@[simp] theorem popRx_err (l : List RxEvent) : (popRx l s).err = s.err := rfl
@[simp] theorem popRx_cfg (l : List RxEvent) : (popRx l s).cfg = s.cfg := rfl
@[simp] theorem popRx_initMem (l : List RxEvent) : (popRx l s).initMem = s.initMem := rfl
@[simp] theorem popRx_fwMem (l : List RxEvent) : (popRx l s).fwMem = s.fwMem := rfl
@[simp] theorem popRx_rx (l : List RxEvent) : (popRx l s).rx = l := rfl
@[simp] theorem popRx_tx (l : List RxEvent) : (popRx l s).tx = s.tx := rfl
@[simp] theorem popRx_txLog (l : List RxEvent) : (popRx l s).txLog = s.txLog := rfl
@[simp] theorem popRx_cmd (l : List RxEvent) : (popRx l s).cmd = s.cmd := rfl
@[simp] theorem popRx_ready (l : List RxEvent) : (popRx l s).ready = s.ready := rfl
@[simp] theorem popRx_phase (l : List RxEvent) : (popRx l s).phase = s.phase := rfl

/-! ## `respond`: a response is taken (R174, R214) -/

@[simp] theorem respond_seq (v : Rsp) : (respond v s).seq = s.seq := rfl
@[simp] theorem respond_upc (v : Rsp) : (respond v s).upc = s.upc := rfl
@[simp] theorem respond_mtu (v : Rsp) : (respond v s).mtu = s.mtu := rfl
@[simp] theorem respond_maxSize (v : Rsp) : (respond v s).maxSize = s.maxSize := rfl
@[simp] theorem respond_initLen (v : Rsp) : (respond v s).initLen = s.initLen := rfl
@[simp] theorem respond_fwLen (v : Rsp) : (respond v s).fwLen = s.fwLen := rfl
@[simp] theorem respond_fwPlen (v : Rsp) : (respond v s).fwPlen = s.fwPlen := rfl
@[simp] theorem respond_fwOff (v : Rsp) : (respond v s).fwOff = s.fwOff := rfl
@[simp] theorem respond_chunkLen (v : Rsp) : (respond v s).chunkLen = s.chunkLen := rfl
@[simp] theorem respond_strSpace (v : Rsp) : (respond v s).strSpace = s.strSpace := rfl
@[simp] theorem respond_strBase (v : Rsp) : (respond v s).strBase = s.strBase := rfl
@[simp] theorem respond_strLen (v : Rsp) : (respond v s).strLen = s.strLen := rfl
@[simp] theorem respond_strPtr (v : Rsp) : (respond v s).strPtr = s.strPtr := rfl
@[simp] theorem respond_fragMax (v : Rsp) : (respond v s).fragMax = s.fragMax := rfl
@[simp] theorem respond_crcAcc (v : Rsp) : (respond v s).crcAcc = s.crcAcc := rfl
@[simp] theorem respond_txBuf (v : Rsp) : (respond v s).txBuf = s.txBuf := rfl
@[simp] theorem respond_rxBuf (v : Rsp) : (respond v s).rxBuf = s.rxBuf := rfl
@[simp] theorem respond_rxEsc (v : Rsp) : (respond v s).rxEsc = s.rxEsc := rfl
@[simp] theorem respond_awaiting (v : Rsp) : (respond v s).awaiting = false := rfl
@[simp] theorem respond_outOp (v : Rsp) : (respond v s).outOp = s.outOp := rfl
@[simp] theorem respond_outShape (v : Rsp) : (respond v s).outShape = s.outShape := rfl
@[simp] theorem respond_rsp (v : Rsp) : (respond v s).rsp = v := rfl
@[simp] theorem respond_errValid (v : Rsp) : (respond v s).errValid = s.errValid := rfl
@[simp] theorem respond_err (v : Rsp) : (respond v s).err = s.err := rfl
@[simp] theorem respond_cfg (v : Rsp) : (respond v s).cfg = s.cfg := rfl
@[simp] theorem respond_initMem (v : Rsp) : (respond v s).initMem = s.initMem := rfl
@[simp] theorem respond_fwMem (v : Rsp) : (respond v s).fwMem = s.fwMem := rfl
@[simp] theorem respond_rx (v : Rsp) : (respond v s).rx = s.rx := rfl
@[simp] theorem respond_tx (v : Rsp) : (respond v s).tx = s.tx := rfl
@[simp] theorem respond_txLog (v : Rsp) : (respond v s).txLog = s.txLog := rfl
@[simp] theorem respond_cmd (v : Rsp) : (respond v s).cmd = s.cmd := rfl
@[simp] theorem respond_ready (v : Rsp) : (respond v s).ready = s.ready := rfl
@[simp] theorem respond_phase (v : Rsp) : (respond v s).phase = .finish := rfl

/-! ## `loadStream`: the streaming registers (R27) -/

@[simp] theorem loadStream_seq (sp : Space) (b n : U32) : (loadStream sp b n s).seq = s.seq := rfl
@[simp] theorem loadStream_upc (sp : Space) (b n : U32) : (loadStream sp b n s).upc = s.upc := rfl
@[simp] theorem loadStream_mtu (sp : Space) (b n : U32) : (loadStream sp b n s).mtu = s.mtu := rfl
@[simp] theorem loadStream_maxSize (sp : Space) (b n : U32) : (loadStream sp b n s).maxSize = s.maxSize := rfl
@[simp] theorem loadStream_initLen (sp : Space) (b n : U32) : (loadStream sp b n s).initLen = s.initLen := rfl
@[simp] theorem loadStream_fwLen (sp : Space) (b n : U32) : (loadStream sp b n s).fwLen = s.fwLen := rfl
@[simp] theorem loadStream_fwPlen (sp : Space) (b n : U32) : (loadStream sp b n s).fwPlen = s.fwPlen := rfl
@[simp] theorem loadStream_fwOff (sp : Space) (b n : U32) : (loadStream sp b n s).fwOff = s.fwOff := rfl
@[simp] theorem loadStream_chunkLen (sp : Space) (b n : U32) :
    (loadStream sp b n s).chunkLen = s.chunkLen := rfl
@[simp] theorem loadStream_strSpace (sp : Space) (b n : U32) : (loadStream sp b n s).strSpace = sp := rfl
@[simp] theorem loadStream_strBase (sp : Space) (b n : U32) : (loadStream sp b n s).strBase = b := rfl
@[simp] theorem loadStream_strLen (sp : Space) (b n : U32) : (loadStream sp b n s).strLen = n := rfl
@[simp] theorem loadStream_strPtr (sp : Space) (b n : U32) : (loadStream sp b n s).strPtr = 0 := rfl
@[simp] theorem loadStream_fragMax (sp : Space) (b n : U32) :
    (loadStream sp b n s).fragMax = fragMaxOf s.mtu := rfl
@[simp] theorem loadStream_crcAcc (sp : Space) (b n : U32) : (loadStream sp b n s).crcAcc = s.crcAcc := rfl
@[simp] theorem loadStream_txBuf (sp : Space) (b n : U32) : (loadStream sp b n s).txBuf = s.txBuf := rfl
@[simp] theorem loadStream_rxBuf (sp : Space) (b n : U32) : (loadStream sp b n s).rxBuf = s.rxBuf := rfl
@[simp] theorem loadStream_rxEsc (sp : Space) (b n : U32) : (loadStream sp b n s).rxEsc = s.rxEsc := rfl
@[simp] theorem loadStream_awaiting (sp : Space) (b n : U32) :
    (loadStream sp b n s).awaiting = s.awaiting := rfl
@[simp] theorem loadStream_outOp (sp : Space) (b n : U32) : (loadStream sp b n s).outOp = s.outOp := rfl
@[simp] theorem loadStream_outShape (sp : Space) (b n : U32) :
    (loadStream sp b n s).outShape = s.outShape := rfl
@[simp] theorem loadStream_rsp (sp : Space) (b n : U32) : (loadStream sp b n s).rsp = s.rsp := rfl
@[simp] theorem loadStream_errValid (sp : Space) (b n : U32) :
    (loadStream sp b n s).errValid = s.errValid := rfl
@[simp] theorem loadStream_err (sp : Space) (b n : U32) : (loadStream sp b n s).err = s.err := rfl
@[simp] theorem loadStream_cfg (sp : Space) (b n : U32) : (loadStream sp b n s).cfg = s.cfg := rfl
@[simp] theorem loadStream_initMem (sp : Space) (b n : U32) : (loadStream sp b n s).initMem = s.initMem := rfl
@[simp] theorem loadStream_fwMem (sp : Space) (b n : U32) : (loadStream sp b n s).fwMem = s.fwMem := rfl
@[simp] theorem loadStream_rx (sp : Space) (b n : U32) : (loadStream sp b n s).rx = s.rx := rfl
@[simp] theorem loadStream_tx (sp : Space) (b n : U32) : (loadStream sp b n s).tx = s.tx := rfl
@[simp] theorem loadStream_txLog (sp : Space) (b n : U32) : (loadStream sp b n s).txLog = s.txLog := rfl
@[simp] theorem loadStream_cmd (sp : Space) (b n : U32) : (loadStream sp b n s).cmd = s.cmd := rfl
@[simp] theorem loadStream_ready (sp : Space) (b n : U32) : (loadStream sp b n s).ready = s.ready := rfl
@[simp] theorem loadStream_phase (sp : Space) (b n : U32) : (loadStream sp b n s).phase = s.phase := rfl

/-! ## `advancePtr`: R268 -/

@[simp] theorem advancePtr_seq (k : Nat) : (advancePtr k s).seq = s.seq := rfl
@[simp] theorem advancePtr_upc (k : Nat) : (advancePtr k s).upc = s.upc := rfl
@[simp] theorem advancePtr_mtu (k : Nat) : (advancePtr k s).mtu = s.mtu := rfl
@[simp] theorem advancePtr_maxSize (k : Nat) : (advancePtr k s).maxSize = s.maxSize := rfl
@[simp] theorem advancePtr_initLen (k : Nat) : (advancePtr k s).initLen = s.initLen := rfl
@[simp] theorem advancePtr_fwLen (k : Nat) : (advancePtr k s).fwLen = s.fwLen := rfl
@[simp] theorem advancePtr_fwPlen (k : Nat) : (advancePtr k s).fwPlen = s.fwPlen := rfl
@[simp] theorem advancePtr_fwOff (k : Nat) : (advancePtr k s).fwOff = s.fwOff := rfl
@[simp] theorem advancePtr_chunkLen (k : Nat) : (advancePtr k s).chunkLen = s.chunkLen := rfl
@[simp] theorem advancePtr_strSpace (k : Nat) : (advancePtr k s).strSpace = s.strSpace := rfl
@[simp] theorem advancePtr_strBase (k : Nat) : (advancePtr k s).strBase = s.strBase := rfl
@[simp] theorem advancePtr_strLen (k : Nat) : (advancePtr k s).strLen = s.strLen := rfl
@[simp] theorem advancePtr_strPtr (k : Nat) : (advancePtr k s).strPtr = s.strPtr + BitVec.ofNat 32 k := rfl
@[simp] theorem advancePtr_fragMax (k : Nat) : (advancePtr k s).fragMax = s.fragMax := rfl
@[simp] theorem advancePtr_crcAcc (k : Nat) : (advancePtr k s).crcAcc = s.crcAcc := rfl
@[simp] theorem advancePtr_txBuf (k : Nat) : (advancePtr k s).txBuf = s.txBuf := rfl
@[simp] theorem advancePtr_rxBuf (k : Nat) : (advancePtr k s).rxBuf = s.rxBuf := rfl
@[simp] theorem advancePtr_rxEsc (k : Nat) : (advancePtr k s).rxEsc = s.rxEsc := rfl
@[simp] theorem advancePtr_awaiting (k : Nat) : (advancePtr k s).awaiting = s.awaiting := rfl
@[simp] theorem advancePtr_outOp (k : Nat) : (advancePtr k s).outOp = s.outOp := rfl
@[simp] theorem advancePtr_outShape (k : Nat) : (advancePtr k s).outShape = s.outShape := rfl
@[simp] theorem advancePtr_rsp (k : Nat) : (advancePtr k s).rsp = s.rsp := rfl
@[simp] theorem advancePtr_errValid (k : Nat) : (advancePtr k s).errValid = s.errValid := rfl
@[simp] theorem advancePtr_err (k : Nat) : (advancePtr k s).err = s.err := rfl
@[simp] theorem advancePtr_cfg (k : Nat) : (advancePtr k s).cfg = s.cfg := rfl
@[simp] theorem advancePtr_initMem (k : Nat) : (advancePtr k s).initMem = s.initMem := rfl
@[simp] theorem advancePtr_fwMem (k : Nat) : (advancePtr k s).fwMem = s.fwMem := rfl
@[simp] theorem advancePtr_rx (k : Nat) : (advancePtr k s).rx = s.rx := rfl
@[simp] theorem advancePtr_tx (k : Nat) : (advancePtr k s).tx = s.tx := rfl
@[simp] theorem advancePtr_txLog (k : Nat) : (advancePtr k s).txLog = s.txLog := rfl
@[simp] theorem advancePtr_cmd (k : Nat) : (advancePtr k s).cmd = s.cmd := rfl
@[simp] theorem advancePtr_ready (k : Nat) : (advancePtr k s).ready = s.ready := rfl
@[simp] theorem advancePtr_phase (k : Nat) : (advancePtr k s).phase = s.phase := rfl

/-! ## `crcLoad`: CRC_LOAD (R230) -/

@[simp] theorem crcLoad_seq (v : U32) : (crcLoad v s).seq = s.seq := rfl
@[simp] theorem crcLoad_upc (v : U32) : (crcLoad v s).upc = s.upc := rfl
@[simp] theorem crcLoad_mtu (v : U32) : (crcLoad v s).mtu = s.mtu := rfl
@[simp] theorem crcLoad_maxSize (v : U32) : (crcLoad v s).maxSize = s.maxSize := rfl
@[simp] theorem crcLoad_initLen (v : U32) : (crcLoad v s).initLen = s.initLen := rfl
@[simp] theorem crcLoad_fwLen (v : U32) : (crcLoad v s).fwLen = s.fwLen := rfl
@[simp] theorem crcLoad_fwPlen (v : U32) : (crcLoad v s).fwPlen = s.fwPlen := rfl
@[simp] theorem crcLoad_fwOff (v : U32) : (crcLoad v s).fwOff = s.fwOff := rfl
@[simp] theorem crcLoad_chunkLen (v : U32) : (crcLoad v s).chunkLen = s.chunkLen := rfl
@[simp] theorem crcLoad_strSpace (v : U32) : (crcLoad v s).strSpace = s.strSpace := rfl
@[simp] theorem crcLoad_strBase (v : U32) : (crcLoad v s).strBase = s.strBase := rfl
@[simp] theorem crcLoad_strLen (v : U32) : (crcLoad v s).strLen = s.strLen := rfl
@[simp] theorem crcLoad_strPtr (v : U32) : (crcLoad v s).strPtr = s.strPtr := rfl
@[simp] theorem crcLoad_fragMax (v : U32) : (crcLoad v s).fragMax = s.fragMax := rfl
@[simp] theorem crcLoad_crcAcc (v : U32) : (crcLoad v s).crcAcc = v := rfl
@[simp] theorem crcLoad_txBuf (v : U32) : (crcLoad v s).txBuf = s.txBuf := rfl
@[simp] theorem crcLoad_rxBuf (v : U32) : (crcLoad v s).rxBuf = s.rxBuf := rfl
@[simp] theorem crcLoad_rxEsc (v : U32) : (crcLoad v s).rxEsc = s.rxEsc := rfl
@[simp] theorem crcLoad_awaiting (v : U32) : (crcLoad v s).awaiting = s.awaiting := rfl
@[simp] theorem crcLoad_outOp (v : U32) : (crcLoad v s).outOp = s.outOp := rfl
@[simp] theorem crcLoad_outShape (v : U32) : (crcLoad v s).outShape = s.outShape := rfl
@[simp] theorem crcLoad_rsp (v : U32) : (crcLoad v s).rsp = s.rsp := rfl
@[simp] theorem crcLoad_errValid (v : U32) : (crcLoad v s).errValid = s.errValid := rfl
@[simp] theorem crcLoad_err (v : U32) : (crcLoad v s).err = s.err := rfl
@[simp] theorem crcLoad_cfg (v : U32) : (crcLoad v s).cfg = s.cfg := rfl
@[simp] theorem crcLoad_initMem (v : U32) : (crcLoad v s).initMem = s.initMem := rfl
@[simp] theorem crcLoad_fwMem (v : U32) : (crcLoad v s).fwMem = s.fwMem := rfl
@[simp] theorem crcLoad_rx (v : U32) : (crcLoad v s).rx = s.rx := rfl
@[simp] theorem crcLoad_tx (v : U32) : (crcLoad v s).tx = s.tx := rfl
@[simp] theorem crcLoad_txLog (v : U32) : (crcLoad v s).txLog = s.txLog := rfl
@[simp] theorem crcLoad_cmd (v : U32) : (crcLoad v s).cmd = s.cmd := rfl
@[simp] theorem crcLoad_ready (v : U32) : (crcLoad v s).ready = s.ready := rfl
@[simp] theorem crcLoad_phase (v : U32) : (crcLoad v s).phase = s.phase := rfl

end Sys2Proof.Machine
end

