-- ==== Sys2Proof/Laws/Ops.lean ====
section
/-! SUPPORT. One lemma per shared operation that says everything the operation can do. -/

namespace Sys2Proof.Machine

/-- A request's SEND, in the phase before its write. -/
theorem sendStep_start (after : State → State) (r : Request) (s : State)
    (hw : ∀ q, s.phase ≠ .write q) (hf : ∀ q, s.phase ≠ .flush q) :
    sendStep after r s = sendEncode r s := by
  unfold sendStep; split <;> simp_all

@[simp] theorem sendStep_write (after : State → State) (r q : Request) (s : State) (h : s.phase = .write q) :
    sendStep after r s = txWrite r s := by simp [sendStep, h]

@[simp] theorem sendStep_flush (after : State → State) (r q : Request) (s : State) (h : s.phase = .flush q) :
    sendStep after r s = txFlush after s := by simp [sendStep, h]

/-- `TxWrite`: blocked, done, or failed with a prefix of the frame on the line. -/
theorem txWrite_cases (r : Request) (s : State) :
    (s.tx = [] ∧ txWrite r s = s) ∨
    (∃ rest, s.tx = .ok :: rest ∧
      txWrite r s = setPhase (.flush r) (logWrite s.txBuf.length rest s)) ∨
    ∃ n rest, s.tx = .ioErr n :: rest ∧ txWrite r s = raise (.transport .write) (logWrite n rest s) := by
  unfold txWrite; split <;> simp_all

/-- `TxFlush`: blocked, done, or failed. -/
theorem txFlush_cases (after : State → State) (s : State) :
    (s.tx = [] ∧ txFlush after s = s) ∨
    (∃ rest, s.tx = .ok :: rest ∧ txFlush after s = after (logFlush .flushed rest s)) ∨
    ∃ n rest, s.tx = .ioErr n :: rest ∧
      txFlush after s = raise (.transport .flush) (logFlush .flushFailed rest s) := by
  unfold txFlush; split <;> simp_all

/-- `APPEND`: the byte is appended and the operation goes on, or the buffer is full. -/
theorem appendRx_cases (b : Byte) (k : State → State) (s : State) :
    (rxFull s = true ∧ appendRx b k s = raise (.framing .overflow) s) ∨
    (rxFull s = false ∧ appendRx b k s = k (pushRx b s)) := by
  unfold appendRx; cases rxFull s <;> simp

theorem rxFull_eq_false (s : State) : rxFull s = false ↔ ∀ n ∈ s.cfg.rxCap, s.rxBuf.length < n := by
  unfold rxFull; split <;> simp_all

theorem fragMaxOf_lt_one (m : U16) : fragMaxOf m < 1 ↔ m.toNat ≤ 4 := by unfold fragMaxOf; omega

/-- STREAM opens its loop, or faults on a small MTU. -/
theorem beginStream_cases (sp : Space) (b n : U32) (s : State) :
    (s.mtu.toNat ≤ 4 ∧
      beginStream sp b n s = raise (.modelFault (.mtuTooSmall s.mtu)) (loadStream sp b n s)) ∨
    (4 < s.mtu.toNat ∧ beginStream sp b n s = setPhase .stream (loadStream sp b n s)) := by
  by_cases h : s.mtu.toNat ≤ 4
  · exact .inl ⟨h, if_pos ((fragMaxOf_lt_one s.mtu).mpr h)⟩
  · exact .inr ⟨by omega, if_neg (by simpa [fragMaxOf_lt_one] using h)⟩

/-- `CRC_BYTE` over a list writes the accumulator and nothing else. -/
theorem crcBytes_eq (d : Bytes) (s : State) : crcBytes d s = crcLoad (crc32 s.cfg d s.crcAcc) s := by
  induction d generalizing s with
  | nil => rfl
  | cons b d ih => rw [crcBytes, ih]; rfl

/-- After a fragment: the CRC has taken its bytes and the pointer has passed them. -/
theorem fragDone_eq (f : Bytes) (s : State) :
    fragDone f s = setPhase .stream (advancePtr f.length (crcLoad (crc32 s.cfg f s.crcAcc) s)) := by
  rw [fragDone, crcBytes_eq]

@[simp] theorem crc32_nil (c : Config) (s : U32) : crc32 c [] s = s := rfl

/-- Chaining (43_crc_accumulator.md R231 L3). -/
theorem crc32_append (c : Config) (a b : Bytes) (s : U32) :
    crc32 c (a ++ b) s = crc32 c b (crc32 c a s) := by
  simp [crc32]

/-- `MemRead` that answers stays inside its space and answers as many bytes as it was asked for. -/
theorem memRead_some {s : State} {sp : Space} {a n : Nat} {d : Bytes} (h : memRead s sp a n = some d) :
    a + n ≤ (spaceBytes s sp).length ∧ d = ((spaceBytes s sp).drop a).take n ∧ d.length = n := by
  unfold memRead at h
  split at h
  · simp only [Option.some.injEq] at h; subst h; simp; omega
  · simp at h

theorem memRead_of_le {s : State} {sp : Space} {a n : Nat} (h : a + n ≤ (spaceBytes s sp).length) :
    memRead s sp a n = some (((spaceBytes s sp).drop a).take n) := if_pos h

theorem fwpad_length (s : State) (h : s.fwMem.length = s.fwLen.toNat) :
    (fwpad s).length = s.fwPlen.toNat := by
  simp [fwpad, h]; omega

theorem initView_of_length (s : State) (h : s.initMem.length = s.initLen.toNat) : initView s = s.initMem := by
  simp [initView, ← h]

/-- `MemRead` depends on the two buffers, the three lengths and the parameters only. -/
theorem memRead_congr {s t : State} (h1 : t.initMem = s.initMem) (h2 : t.initLen = s.initLen)
    (h3 : t.fwMem = s.fwMem) (h4 : t.fwLen = s.fwLen) (h5 : t.fwPlen = s.fwPlen) (h6 : t.cfg = s.cfg)
    (sp : Space) (a n : Nat) : memRead t sp a n = memRead s sp a n := by
  cases sp <;> simp [memRead, spaceBytes, initView, fwpad, h1, h2, h3, h4, h5, h6]

/-- A length that fits is latched as it is. -/
theorem latchLength_toNat {n : Nat} (h : n < 2 ^ 32) : (latchLength n).toNat = n := by
  rw [latchLength, if_pos h, BitVec.toNat_ofNat, Nat.mod_eq_of_lt h]

/-- The chunk length in integers (R262). -/
theorem chunkLengthOf_toNat {s : State} (h : s.fwOff.toNat ≤ s.fwPlen.toNat) :
    (chunkLengthOf s).toNat = min s.maxSize.toNat (s.fwPlen.toNat - s.fwOff.toNat) := by
  unfold chunkLengthOf minU32; split <;> bv_omega

end Sys2Proof.Machine
end

