-- ==== Sys2Proof/Laws/Step.lean ====
section
/-! SUPPORT. Everything one step can do, said once: `StepTo s t` lists the ways a running engine goes on, and
`step_next` says that a step takes one of them. -/

namespace Sys2Proof.Machine

/-- The ways a running engine goes from `s` to its next state. -/
inductive StepTo (s : State) : State → Prop where
  | blocked : (s.phase = .enter ∧ s.upc = .m0 ∧ s.cmd = none) ∨
      (∃ r, r ≠ .getHardwareVersion ∧ (s.phase = .write r ∨ s.phase = .flush r) ∧ s.tx = []) ∨
      (s.phase = .recv ∧ s.rx = []) →
      StepTo s s
  | start (c : StartCmd) : s.phase = .enter → s.upc = .m0 → s.cmd = some c →
      c.initBytes.length < 2 ^ 32 → paddedLength s.cfg c.fwBytes.length < 2 ^ 32 →
      StepTo s (goTo .connecting .m1 (latchStart c s))
  | startTooLong (c : StartCmd) : s.phase = .enter → s.upc = .m0 → s.cmd = some c →
      ¬ (c.initBytes.length < 2 ^ 32 ∧ paddedLength s.cfg c.fwBytes.length < 2 ^ 32) →
      StepTo s (raise (.modelFault .lengthTooLarge) (latchStart c s))
  | exchange (r : Request) : s.phase = .enter → stepRequest s = some r → s.upc ≠ .m10 →
      StepTo s (begin r s)
  | noChunkLeft : s.phase = .enter → s.upc = .m10 → s.fwOff = s.fwPlen → StepTo s (goTo .done .m14 s)
  | chunk : s.phase = .enter → s.upc = .m10 → s.fwOff ≠ s.fwPlen →
      StepTo s (begin (.createObject .data (chunkLengthOf s)) (setChunkLen (chunkLengthOf s) s))
  | openDat : s.phase = .enter → s.upc = .m6 → 4 < s.mtu.toNat →
      StepTo s (setPhase .stream (loadStream .initMem 0 s.initLen (crcLoad 0 (setSeq .datStreaming s))))
  | openDatSmallMtu : s.phase = .enter → s.upc = .m6 → s.mtu.toNat ≤ 4 →
      StepTo s (raise (.modelFault (.mtuTooSmall s.mtu))
        (loadStream .initMem 0 s.initLen (crcLoad 0 (setSeq .datStreaming s))))
  | openBin : s.phase = .enter → s.upc = .m11 → 4 < s.mtu.toNat →
      StepTo s (setPhase .stream (loadStream .fwpad s.fwOff s.chunkLen (setSeq .binStreaming s)))
  | openBinSmallMtu : s.phase = .enter → s.upc = .m11 → s.mtu.toNat ≤ 4 →
      StepTo s (raise (.modelFault (.mtuTooSmall s.mtu))
        (loadStream .fwpad s.fwOff s.chunkLen (setSeq .binStreaming s)))
  | encodeOnly : (s.phase = .send .getHardwareVersion ∨ s.phase = .write .getHardwareVersion ∨
      s.phase = .flush .getHardwareVersion) → StepTo s (encodeOnly .getHardwareVersion s)
  | encodedDone (msg : Bytes) : s.phase = .encoded msg → StepTo s (setPhase .enter s)
  | encode (r : Request) : s.phase = .send r → r ≠ .getHardwareVersion → StepTo s (sendEncode r s)
  | written (r : Request) (rest : List TxResult) : s.phase = .write r → r ≠ .getHardwareVersion →
      s.tx = .ok :: rest →
      StepTo s (setPhase (.flush r) (logWrite s.txBuf.length rest s))
  | writeFailed (r : Request) (n : Nat) (rest : List TxResult) : s.phase = .write r →
      r ≠ .getHardwareVersion →
      s.tx = .ioErr n :: rest → StepTo s (raise (.transport .write) (logWrite n rest s))
  | flushed (r : Request) (rest : List TxResult) : s.phase = .flush r → r ≠ .getHardwareVersion →
      (∀ d, r ≠ .writeChunk d) →
      s.tx = .ok :: rest → StepTo s (beginDecode (setAwaiting r (logFlush .flushed rest s)))
  | chunkFlushed (d : Bytes) (rest : List TxResult) : s.phase = .flush (.writeChunk d) →
      s.tx = .ok :: rest → StepTo s (setPhase (.sent d) (logFlush .flushed rest s))
  | flushFailed (r : Request) (n : Nat) (rest : List TxResult) : s.phase = .flush r →
      r ≠ .getHardwareVersion →
      s.tx = .ioErr n :: rest → StepTo s (raise (.transport .flush) (logFlush .flushFailed rest s))
  | fragDone (d : Bytes) : s.phase = .sent d →
      StepTo s (setPhase .stream (advancePtr d.length (crcLoad (crc32 s.cfg d s.crcAcc) s)))
  | fragment (d : Bytes) : s.phase = .stream → s.strPtr.toNat < s.strLen.toNat →
      memRead s s.strSpace (s.strBase.toNat + s.strPtr.toNat) (fragLengthOf s) = some d →
      StepTo s (begin (.writeChunk d) s)
  | streamEndDat : s.phase = .stream → s.strLen.toNat ≤ s.strPtr.toNat → s.upc = .m6 →
      StepTo s (goTo s.seq .m7 s)
  | streamEndBin : s.phase = .stream → s.strLen.toNat ≤ s.strPtr.toNat → s.upc = .m11 →
      StepTo s (goTo s.seq .m12 s)
  | streamEndOther : s.phase = .stream → s.upc ≠ .m6 → s.upc ≠ .m11 → StepTo s (setPhase .enter s)
  | recvEof (rest : List RxEvent) : s.phase = .recv → s.rx = .eof :: rest →
      StepTo s (raise (.framing .streamClosed) (popRx rest s))
  | recvTimeout (rest : List RxEvent) : s.phase = .recv → s.rx = .timeout :: rest →
      StepTo s (raise .timeout (popRx rest s))
  | recvIoErr (rest : List RxEvent) : s.phase = .recv → s.rx = .ioErr :: rest →
      StepTo s (raise (.transport .read) (popRx rest s))
  | recvEsc (rest : List RxEvent) : s.phase = .recv → s.rx = .byte s.cfg.escByte :: rest →
      s.rxEsc = false → s.cfg.escByte ≠ s.cfg.endByte → StepTo s (setEsc (popRx rest s))
  | recvEnd (rest : List RxEvent) : s.phase = .recv → s.rx = .byte s.cfg.endByte :: rest →
      s.rxEsc = false → StepTo s (endFrame (popRx rest s))
  | recvOverflow (b : Byte) (rest : List RxEvent) : s.phase = .recv → s.rx = .byte b :: rest →
      rxFull s = true → StepTo s (raise (.framing .overflow) (popRx rest s))
  | recvLiteral (b : Byte) (rest : List RxEvent) : s.phase = .recv → s.rx = .byte b :: rest →
      s.rxEsc = false → b ≠ s.cfg.endByte → b ≠ s.cfg.escByte → rxFull s = false →
      StepTo s (pushRx b (popRx rest s))
  | recvEscEnd (rest : List RxEvent) : s.phase = .recv → s.rx = .byte s.cfg.subEnd :: rest →
      s.rxEsc = true → rxFull s = false → StepTo s (clearEsc (pushRx s.cfg.endByte (popRx rest s)))
  | recvEscEsc (rest : List RxEvent) : s.phase = .recv → s.rx = .byte s.cfg.subEsc :: rest →
      s.rxEsc = true → s.cfg.subEsc ≠ s.cfg.subEnd → rxFull s = false →
      StepTo s (clearEsc (pushRx s.cfg.escByte (popRx rest s)))
  | recvBadEscape (b : Byte) (rest : List RxEvent) : s.phase = .recv → s.rx = .byte b :: rest →
      s.rxEsc = true → b ≠ s.cfg.subEnd → b ≠ s.cfg.subEsc →
      StepTo s (raise (.framing (.badEscape b)) (popRx rest s))
  | parseError (k : ErrKind) : s.phase = .parse →
      decodeResponse s.cfg s.outOp s.outShape s.rxBuf = .error k → StepTo s (raise k s)
  | parseRejected (e w : Byte) : s.phase = .parse →
      decodeResponse s.cfg s.outOp s.outShape s.rxBuf = .ok (.rspRejected e w) →
      StepTo s (raise (.deviceRejection w (s.cfg.resName w)) s)
  | parseOk (v : Rsp) : s.phase = .parse → StepTo s (respond v s)
  | versionOk : s.phase = .finish → s.upc = .m1 → s.rsp.version = s.cfg.supportedVersion →
      StepTo s (goTo .connecting .m2 s)
  | versionMismatch : s.phase = .finish → s.upc = .m1 → s.rsp.version ≠ s.cfg.supportedVersion →
      StepTo s (raise (.versionMismatch s.rsp.version) s)
  | mtu : s.phase = .finish → s.upc = .m2 → StepTo s (goTo .connecting .m3 (setMtu s.rsp.mtu s))
  | negotiated : s.phase = .finish → s.upc = .m3 → StepTo s (goTo .negotiated .m4 s)
  | datSelected : s.phase = .finish → s.upc = .m4 → StepTo s (goTo .datSelected .m5 s)
  | datCreated : s.phase = .finish → s.upc = .m5 → StepTo s (goTo .datCreated .m6 s)
  | datCrcOk : s.phase = .finish → s.upc = .m7 → s.rsp.crc.crc = s.crcAcc →
      StepTo s (goTo .datCrcChecked .m8 s)
  | datExecuted : s.phase = .finish → s.upc = .m8 → StepTo s (goTo .datExecuted .m9 s)
  | binSelected : s.phase = .finish → s.upc = .m9 → s.rsp.sel.maxSize ≠ 0 →
      StepTo s (goTo .binSelected .m10 (crcLoad 0 (setFwOff 0 (setMaxSize s.rsp.sel.maxSize s))))
  | maxSizeZero : s.phase = .finish → s.upc = .m9 → s.rsp.sel.maxSize = 0 →
      StepTo s (raise (.modelFault .maxSizeZero) (setMaxSize s.rsp.sel.maxSize s))
  | binCreated : s.phase = .finish → s.upc = .m10 → StepTo s (goTo .binCreated .m11 s)
  | binCrcOk : s.phase = .finish → s.upc = .m12 → s.rsp.crc.crc = s.crcAcc →
      StepTo s (goTo .binCrcChecked .m13 s)
  | crcMismatch : s.phase = .finish → s.upc = .m7 ∨ s.upc = .m12 → s.rsp.crc.crc ≠ s.crcAcc →
      StepTo s (raise (.integrity s.crcAcc s.rsp.crc.crc) s)
  | binExecuted : s.phase = .finish → s.upc = .m13 →
      StepTo s (goTo .binExecuted .m10 (setFwOff (s.fwOff + s.chunkLen) s))
  | finishOther : s.phase = .finish → stepRequest s = none → StepTo s (setPhase .enter s)

/-- What executing a request does, by phase: GetHardwareVersion is encoded only, every other one is sent. -/
theorem exec_request (r : Request) (s : State) :
    (r = .getHardwareVersion ∧ exec r.toInstr s = .next (encodeOnly .getHardwareVersion s)) ∨
    (r ≠ .getHardwareVersion ∧ exec r.toInstr s = .next (sendStep
      (match r with
        | .writeChunk d => setPhase (.sent d)
        | _ => fun t => beginDecode (setAwaiting r t)) r s)) := by
  cases r <;> first | exact .inl ⟨rfl, rfl⟩ | exact .inr ⟨by simp, rfl⟩

/-- No step exchanges GetHardwareVersion (R162). -/
theorem stepRequest_ne_getHardwareVersion (s : State) : stepRequest s ≠ some .getHardwareVersion := by
  unfold stepRequest; split <;> simp

/-- In a running session in order GetHardwareVersion is never in hand (R162). -/
theorem phaseFits_not_hardwareVersion {s : State} (h : phaseFits s) (hh : s.upc ≠ .mf) :
    ¬ (s.phase = .send .getHardwareVersion ∨ s.phase = .write .getHardwareVersion ∨
      s.phase = .flush .getHardwareVersion) ∧ ∀ m, s.phase ≠ .encoded m := by
  have := stepRequest_ne_getHardwareVersion s
  unfold phaseFits at h
  refine ⟨?_, ?_⟩
  · rintro (e | e | e) <;> rw [e] at h <;> split at h <;> simp_all [exchangePhase, streamPhase]
  · intro m e
    rw [e] at h
    split at h <;> simp_all [exchangePhase, streamPhase]

/-- `PARSE_RESPONSE` recognises response rows only; executing one that is no rejection takes its members. -/
theorem decodeShape_exec (c : Config) (op : Byte) (sh : Shape) (body : Bytes) (s : State) :
    ∃ v, exec (decodeShape c op sh body) s = .next (respond v s) := by
  cases sh
  case empty =>
    simp only [decodeShape, ackRow]
    split
    · exact ⟨_, rfl⟩
    · split
      · exact ⟨_, rfl⟩
      · split <;> exact ⟨_, rfl⟩
  all_goals exact ⟨_, rfl⟩

theorem decodeResponse_ok {c : Config} {op : Byte} {sh : Shape} {P : Bytes} {i : Instr}
    (h : decodeResponse c op sh P = .ok i) :
    (∃ e w, i = .rspRejected e w) ∨ ∃ body, i = decodeShape c op sh body := by
  unfold decodeResponse decodeBody at h
  grind

/-- A running engine, in terms of `upc`. -/
theorem halted_eq_false (s : State) : halted s = false ↔ s.upc ≠ .m14 ∧ s.upc ≠ .mf := by
  simp [halted]

/-- Entering a microprogram step takes one of the ways listed for it. -/
theorem enterStep_to (s : State) (hp : s.phase = .enter) (hh : s.upc ≠ .m14 ∧ s.upc ≠ .mf) :
    StepTo s (enterStep s) := by
  have hx : ∀ r, stepRequest s = some r → s.upc ≠ .m10 → StepTo s (enterExchange s) := fun r hr hu => by
    simpa only [enterExchange, hr] using StepTo.exchange r hp hr hu
  unfold enterStep
  split <;> rename_i hu
  case h_1 =>
    split
    · exact .blocked (.inl ⟨hp, hu, ‹_›⟩)
    · rename_i c hc
      unfold takeStart; split
      · rename_i hl; exact .start c hp hu hc hl.1 hl.2
      · exact .startTooLong c hp hu hc ‹_›
  case h_7 =>
    rcases beginStream_cases .initMem 0 s.initLen (crcLoad 0 (setSeq .datStreaming s)) with ⟨hm, h⟩ | ⟨hm, h⟩
    · rw [Machine.openDat, h]; exact .openDatSmallMtu hp hu hm
    · rw [Machine.openDat, h]; exact .openDat hp hu hm
  case h_11 =>
    split
    · exact .noChunkLeft hp hu ‹_›
    · have hr : stepRequest (setChunkLen (chunkLengthOf s) s) =
          some (.createObject .data (chunkLengthOf s)) := by
        simp [stepRequest, hu, chunkLengthOf]
      simpa only [enterExchange, hr] using StepTo.chunk hp hu ‹_›
  case h_12 =>
    rcases beginStream_cases .fwpad s.fwOff s.chunkLen (setSeq .binStreaming s) with ⟨hm, h⟩ | ⟨hm, h⟩
    · rw [Machine.openBin, h]; exact .openBinSmallMtu hp hu hm
    · rw [Machine.openBin, h]; exact .openBin hp hu hm
  case h_15 => exact absurd hu hh.1
  case h_16 => exact absurd hu hh.2
  all_goals exact hx _ (by simp only [stepRequest, hu]; rfl) (by simp [hu])

/-- Finishing a microprogram step takes one of the ways listed for it. -/
theorem finishStep_to (s : State) (hp : s.phase = .finish) : StepTo s (finishStep s) := by
  unfold finishStep checkCrc
  split <;> rename_i hu
  case h_1 =>
    split
    · exact .versionMismatch hp hu ‹_›
    · exact .versionOk hp hu (not_ne_iff.mp ‹_›)
  case h_2 => exact .mtu hp hu
  case h_3 => exact .negotiated hp hu
  case h_4 => exact .datSelected hp hu
  case h_5 => exact .datCreated hp hu
  case h_6 =>
    split
    · exact .crcMismatch hp (.inl hu) ‹_›
    · exact .datCrcOk hp hu (not_ne_iff.mp ‹_›)
  case h_7 => exact .datExecuted hp hu
  case h_8 =>
    by_cases hm : s.rsp.sel.maxSize = 0
    · rw [show finishSelectData s = _ from if_pos hm]; exact .maxSizeZero hp hu hm
    · rw [show finishSelectData s = _ from if_neg hm]; exact .binSelected hp hu hm
  case h_9 => exact .binCreated hp hu
  case h_10 =>
    split
    · exact .crcMismatch hp (.inr hu) ‹_›
    · exact .binCrcOk hp hu (not_ne_iff.mp ‹_›)
  case h_11 => exact .binExecuted hp hu
  all_goals exact .finishOther hp (by simp [stepRequest, hu])

/-- The end of a STREAM takes one of the ways listed for it. -/
theorem endStream_to (s : State) (hp : s.phase = .stream) (hl : s.strLen.toNat ≤ s.strPtr.toNat) :
    StepTo s (endStream s) := by
  unfold endStream
  split <;> rename_i hu
  case h_1 => exact .streamEndDat hp hl hu
  case h_2 => exact .streamEndBin hp hl hu
  all_goals exact .streamEndOther hp (by simp [hu]) (by simp [hu])

/-- `APPEND` of a byte just read overflows or goes on. -/
theorem append_to {s : State} {b : Byte} {rest : List RxEvent} (hp : s.phase = .recv)
    (hrx : s.rx = .byte b :: rest) (a : Byte) (k : State → State)
    (h : rxFull s = false → StepTo s (k (pushRx a (popRx rest s)))) :
    StepTo s (appendRx a k (popRx rest s)) := by
  rcases appendRx_cases a k (popRx rest s) with ⟨hf, e⟩ | ⟨hf, e⟩ <;> rw [e]
  · exact .recvOverflow b rest hp hrx hf
  · exact h hf

/-- A step of a running engine takes one of the listed ways. -/
theorem runPhase_next {s t : State} (hh : s.upc ≠ .m14 ∧ s.upc ≠ .mf) (h : runPhase s = .next t) :
    StepTo s t := by
  unfold runPhase at h
  split at h
  · cases h; exact enterStep_to s ‹_› hh
  · rename_i r hp
    rcases exec_request r s with ⟨rfl, e⟩ | ⟨hr, e⟩
    · rw [e] at h; cases h; exact .encodeOnly (.inl hp)
    rw [e, sendStep_start _ _ _ (by simp [hp]) (by simp [hp])] at h
    cases h; exact .encode r hp hr
  · rename_i r hp
    rcases exec_request r s with ⟨rfl, e⟩ | ⟨hr, e⟩
    · rw [e] at h; cases h; exact .encodeOnly (.inr (.inl hp))
    rw [e, sendStep_write _ _ r _ hp] at h
    cases h
    rcases txWrite_cases r s with ⟨hx, h⟩ | ⟨rest, hx, h⟩ | ⟨n, rest, hx, h⟩ <;> rw [h]
    · exact .blocked (.inr (.inl ⟨r, hr, .inl hp, hx⟩))
    · exact .written r rest hp hr hx
    · exact .writeFailed r n rest hp hr hx
  · rename_i r hp
    rcases exec_request r s with ⟨rfl, e⟩ | ⟨hr, e⟩
    · rw [e] at h; cases h; exact .encodeOnly (.inr (.inr hp))
    rw [e, sendStep_flush _ _ r _ hp] at h
    cases h
    generalize hk : (match r with
      | .writeChunk d => setPhase (.sent d)
      | _ => fun t => beginDecode (setAwaiting r t)) = k
    rcases txFlush_cases k s with ⟨hx, h⟩ | ⟨rest, hx, h⟩ | ⟨n, rest, hx, h⟩ <;> rw [h]
    · exact .blocked (.inr (.inl ⟨r, hr, .inr hp, hx⟩))
    · subst hk
      cases r
      case writeChunk d => exact .chunkFlushed d rest hp hx
      all_goals exact .flushed _ rest hp hr (by simp) hx
    · exact .flushFailed r n rest hp hr hx
  · cases h; exact .encodedDone _ ‹_›
  · cases h; rw [fragDone_eq]; exact .fragDone _ ‹_›
  · rename_i hp
    unfold streamStep at h
    split at h
    · split at h
      · cases h; exact .fragment _ hp ‹_› ‹_›
      · cases h
    · cases h; exact endStream_to s hp (by omega)
  · rename_i hp
    unfold recvStep at h
    split at h
    · cases h; exact .blocked (.inr (.inr ⟨hp, ‹_›⟩))
    · cases h; exact .recvEof _ hp ‹_›
    · cases h; exact .recvTimeout _ hp ‹_›
    · cases h; exact .recvIoErr _ hp ‹_›
    · rename_i b rest hrx
      unfold symbolOfByte at h
      cases he : s.rxEsc <;> simp only [he, if_true, if_false, Bool.false_eq_true] at h
      · by_cases h1 : b = s.cfg.endByte
        · subst h1; simp only [if_true] at h; cases h; exact .recvEnd rest hp hrx he
        · by_cases h2 : b = s.cfg.escByte
          · subst h2; simp only [h1, if_true, if_false] at h; cases h; exact .recvEsc rest hp hrx he h1
          · simp only [h1, h2, if_false] at h; cases h
            exact append_to hp hrx _ _ fun hf => .recvLiteral b rest hp hrx he h1 h2 hf
      · by_cases h1 : b = s.cfg.subEnd
        · subst h1; simp only [if_true] at h; cases h
          exact append_to hp hrx _ _ fun hf => .recvEscEnd rest hp hrx he hf
        · by_cases h2 : b = s.cfg.subEsc
          · subst h2; simp only [h1, if_true, if_false] at h; cases h
            exact append_to hp hrx _ _ fun hf => .recvEscEsc rest hp hrx he h1 hf
          · simp only [h1, h2, if_false] at h; cases h; exact .recvBadEscape b rest hp hrx he h1 h2
  · rename_i hp
    unfold parseStep at h
    split at h
    · rename_i i hd
      rcases decodeResponse_ok hd with ⟨e, w, rfl⟩ | ⟨body, rfl⟩
      · cases h; exact .parseRejected e w hp hd
      · obtain ⟨v, hv⟩ := decodeShape_exec s.cfg s.outOp s.outShape body s
        rw [hv] at h; cases h; exact .parseOk v hp
    · cases h; exact .parseError _ hp ‹_›
  · cases h; exact finishStep_to s ‹_›

/-- What one step can do: a halted engine stays as it is; a running one takes one of the listed ways. -/
theorem step_next {s t : State} (h : step s = .next t) :
    (halted s = true ∧ t = s) ∨ (halted s = false ∧ StepTo s t) := by
  unfold step at h
  split at h
  · cases h; exact .inl ⟨‹_›, rfl⟩
  · have hh := Bool.eq_false_of_not_eq_true ‹¬ _›
    exact .inr ⟨hh, runPhase_next ((halted_eq_false s).mp hh) h⟩

end Sys2Proof.Machine
end

