-- ==== Sys2Proof/Laws/Memory.lean ====
section
/-! SUPPORT. The byte spaces keep their form: every operation that writes a buffer or a length register keeps
`Memory.wf`, the reset state has it, and so does every step of a machine whose `Start` fits. -/

namespace Sys2Proof.Machine

theorem Memory.wf_iff (s : State) :
    Memory.wf s = true ↔
      s.initMem.length = s.initLen.toNat ∧ s.fwMem.length = s.fwLen.toNat ∧
        s.fwPlen.toNat = paddedLength s.cfg s.fwMem.length ∧ ∀ n ∈ s.cfg.rxCap, s.rxBuf.length ≤ n := by
  simp only [Memory.wf, Bool.and_eq_true, decide_eq_true_eq, and_assoc]

/-- An operation that leaves the buffers, their lengths and the parameters alone keeps the form. -/
theorem Memory.wf_congr {s t : State} (h : Memory.wf s = true) (h1 : t.initMem = s.initMem)
    (h2 : t.initLen = s.initLen) (h3 : t.fwMem = s.fwMem) (h4 : t.fwLen = s.fwLen)
    (h5 : t.fwPlen = s.fwPlen) (h6 : t.cfg = s.cfg) (h7 : t.rxBuf = s.rxBuf) : Memory.wf t = true := by
  rw [Memory.wf_iff] at h ⊢
  simpa only [h1, h2, h3, h4, h5, h6, h7] using h

theorem Memory.wf_reset : Memory.wf State.reset = true := by decide

/-- R142: a byte is appended only to a buffer with room. -/
theorem Memory.wf_pushRx {s : State} (b : Byte) (h : Memory.wf s = true) (hf : rxFull s = false) :
    Memory.wf (pushRx b s) = true := by
  rw [Memory.wf_iff] at h ⊢
  rw [rxFull_eq_false] at hf
  exact ⟨h.1, h.2.1, h.2.2.1, fun n hn => by simpa using hf n hn⟩

theorem Memory.wf_beginDecode {s : State} (h : Memory.wf s = true) : Memory.wf (beginDecode s) = true := by
  rw [Memory.wf_iff] at h ⊢
  exact ⟨h.1, h.2.1, h.2.2.1, fun n _ => by simp⟩

theorem Memory.wf_latchStart {s : State} (cmd : StartCmd) (h : Memory.wf s = true)
    (hc : cmd.fits s.cfg) : Memory.wf (latchStart cmd s) = true := by
  rw [Memory.wf_iff] at h ⊢
  obtain ⟨h1, h2, h3⟩ := hc
  simp only [latchStart_initMem, latchStart_initLen, latchStart_fwMem, latchStart_fwLen, latchStart_fwPlen,
    latchStart_cfg, latchStart_rxBuf, latchLength_toNat h1, latchLength_toNat h2, latchLength_toNat h3]
  exact ⟨trivial, trivial, trivial, h.2.2.2⟩

/-- Every step keeps the form, if a pending `Start` fits. (One that does not is refused by R251 with lengths
the spec does not state, log entry 9; the engine then halts.) -/
theorem Memory.wf_step {s t : State} (h : Memory.wf s = true) (hc : ∀ cmd ∈ s.cmd, cmd.fits s.cfg)
    (hs : step s = .next t) : Memory.wf t = true := by
  rcases step_next hs with ⟨-, rfl⟩ | ⟨-, ht⟩
  · exact h
  cases ht
  case start c _ _ hcmd _ _ =>
    exact Memory.wf_congr (Memory.wf_latchStart c h (hc c hcmd)) rfl rfl rfl rfl rfl rfl rfl
  case startTooLong c _ _ hcmd _ =>
    exact Memory.wf_congr (Memory.wf_latchStart c h (hc c hcmd)) rfl rfl rfl rfl rfl rfl rfl
  case flushed r rest _ _ _ _ =>
    exact Memory.wf_beginDecode
      (Memory.wf_congr h rfl rfl rfl rfl rfl rfl rfl : Memory.wf (setAwaiting r (logFlush .flushed rest s)) = true)
  case recvLiteral b rest _ _ _ _ _ hf =>
    exact Memory.wf_pushRx b (Memory.wf_congr h rfl rfl rfl rfl rfl rfl rfl : Memory.wf (popRx rest s) = true) hf
  case recvEscEnd rest _ _ _ hf =>
    exact Memory.wf_pushRx _ (Memory.wf_congr h rfl rfl rfl rfl rfl rfl rfl : Memory.wf (popRx rest s) = true) hf
  case recvEscEsc rest _ _ _ _ hf =>
    exact Memory.wf_pushRx _ (Memory.wf_congr h rfl rfl rfl rfl rfl rfl rfl : Memory.wf (popRx rest s) = true) hf
  all_goals exact Memory.wf_congr h rfl rfl rfl rfl rfl rfl rfl

end Sys2Proof.Machine
end

