-- ==== Sys2Proof/Laws/PerInstr.lean ====
section
/-! SUPPORT. A law of every instruction as syntax: its encoding has the length of its format (30_encoding.md
R94 for messages, R98 and R100 for envelopes, R91 for frame symbols). -/

namespace Sys2Proof.Laws

/-- The number of bytes the format of an item gives it. -/
def EncodingLength.size : Instr → Nat
  | .getProtocolVersion => 1
  | .getHardwareVersion => 1
  | .selectObject _ => 2
  | .createObject _ _ => 6
  | .setReceiptNotification _ => 3
  | .getMtu => 1
  | .writeChunk data => 1 + data.length
  | .getCrc => 1
  | .execute => 1
  | .rspGetProtocolVersion _ => 3 + 1
  | .rspGetHardwareVersion _ _ _ _ _ => 3 + 20
  | .rspSelectObject _ _ _ => 3 + 12
  | .rspCreateObject => 3
  | .rspSetReceiptNotification => 3
  | .rspGetMtu _ => 3 + 2
  | .rspWriteChunk => 3
  | .rspGetCrc _ _ => 3 + 8
  | .rspExecute => 3
  | .rspRejected _ _ => 3
  | .frameEnd => 1
  | .frameEscEnd => 2
  | .frameEscEsc => 2
  | .frameLiteral _ => 1
  | .frameBadEscape _ => 2

/-- The encoder emits exactly that many bytes, under every configuration. -/
def EncodingLength.Statement (i : Instr) : Prop :=
  ∀ c : Config, (encode c i).length = EncodingLength.size i

theorem EncodingLength.getProtocolVersion : EncodingLength.Statement .getProtocolVersion := fun _ => rfl

theorem EncodingLength.getHardwareVersion : EncodingLength.Statement .getHardwareVersion := fun _ => rfl

theorem EncodingLength.selectObject (kind : ObjectKind) :
    EncodingLength.Statement (.selectObject kind) := fun _ => rfl

theorem EncodingLength.createObject (kind : ObjectKind) (size : U32) :
    EncodingLength.Statement (.createObject kind size) := fun _ => rfl

theorem EncodingLength.setReceiptNotification (everyN : U16) :
    EncodingLength.Statement (.setReceiptNotification everyN) := fun _ => rfl

theorem EncodingLength.getMtu : EncodingLength.Statement .getMtu := fun _ => rfl

theorem EncodingLength.writeChunk (data : Bytes) :
    EncodingLength.Statement (.writeChunk data) := fun c => by
  simp [encode, encReq, EncodingLength.size, Nat.add_comm]

theorem EncodingLength.getCrc : EncodingLength.Statement .getCrc := fun _ => rfl

theorem EncodingLength.execute : EncodingLength.Statement .execute := fun _ => rfl

theorem EncodingLength.rspGetProtocolVersion (version : Byte) :
    EncodingLength.Statement (.rspGetProtocolVersion version) := fun _ => rfl

theorem EncodingLength.rspGetHardwareVersion (part variant romSize ramSize romPageSize : U32) :
    EncodingLength.Statement (.rspGetHardwareVersion part variant romSize ramSize romPageSize) := fun _ => rfl

theorem EncodingLength.rspSelectObject (maxSize offset crc : U32) :
    EncodingLength.Statement (.rspSelectObject maxSize offset crc) := fun _ => rfl

theorem EncodingLength.rspCreateObject : EncodingLength.Statement .rspCreateObject := fun _ => rfl

theorem EncodingLength.rspSetReceiptNotification :
    EncodingLength.Statement .rspSetReceiptNotification := fun _ => rfl

theorem EncodingLength.rspGetMtu (mtu : U16) : EncodingLength.Statement (.rspGetMtu mtu) := fun _ => rfl

theorem EncodingLength.rspWriteChunk : EncodingLength.Statement .rspWriteChunk := fun _ => rfl

theorem EncodingLength.rspGetCrc (offset crc : U32) :
    EncodingLength.Statement (.rspGetCrc offset crc) := fun _ => rfl

theorem EncodingLength.rspExecute : EncodingLength.Statement .rspExecute := fun _ => rfl

theorem EncodingLength.rspRejected (echo raw : Byte) :
    EncodingLength.Statement (.rspRejected echo raw) := fun _ => rfl

theorem EncodingLength.frameEnd : EncodingLength.Statement .frameEnd := fun _ => rfl

theorem EncodingLength.frameEscEnd : EncodingLength.Statement .frameEscEnd := fun _ => rfl

theorem EncodingLength.frameEscEsc : EncodingLength.Statement .frameEscEsc := fun _ => rfl

theorem EncodingLength.frameLiteral (b : Byte) :
    EncodingLength.Statement (.frameLiteral b) := fun _ => rfl

theorem EncodingLength.frameBadEscape (x : Byte) :
    EncodingLength.Statement (.frameBadEscape x) := fun _ => rfl

end Sys2Proof.Laws
end

