-- ==== Sys2Proof/Tests/Slice0.lean ====
section
/-! SUPPORT. The model's own tests: ill-formed terms, words written from the spec's encodings, the vectors of
95_test_vectors.md that fit in one step or one function call, and for every statement with hypotheses a
named theorem that meets them. Expected values are the spec's. -/

namespace Sys2Proof.Tests

open Sys2Proof Sys2Proof.Machine

/-! ## Helpers -/

/-- The next state, if there is one. -/
def after : Host.Outcome State Fault Refusal → Option State
  | .next s => some s
  | .fault _ => none
  | .refused _ => none

/-- The reset state moved to a position of the microprogram. -/
def atStep (u : Upc) (p : Phase) : State := { State.reset with upc := u, phase := p }

/-- `PARSE_RESPONSE(payload)` is due, as the answer to `op` with shape `sh`. -/
def parsing (op : Byte) (sh : Shape) (payload : Bytes) : State :=
  { atStep .m2 .parse with outOp := op, outShape := sh, awaiting := true, rxBuf := payload }

/-- Inside `DECODE_FRAME` with these bytes on the line. -/
def receiving (bytes : Bytes) (rest : List RxEvent) : State :=
  { atStep .m2 .recv with awaiting := true, rx := bytes.map RxEvent.byte ++ rest }

/-- A machine with a finite receive buffer, already holding `payload`. -/
def capped (n : Nat) (payload : Bytes) : State :=
  { atStep .m2 .recv with cfg := { Config.default with rxCap := some n }, rxBuf := payload }

/-! ## WellFormed: each check refuses an ill-formed term -/

theorem test_wf_literal_end : Instr.wf Config.default (.frameLiteral 0xC0) = false := by decide
theorem test_wf_literal_esc : Instr.wf Config.default (.frameLiteral 0xDB) = false := by decide
theorem test_wf_badEscape_subEnd : Instr.wf Config.default (.frameBadEscape 0xDC) = false := by decide
theorem test_wf_badEscape_subEsc : Instr.wf Config.default (.frameBadEscape 0xDD) = false := by decide
theorem test_wf_rejected_success : Instr.wf Config.default (.rspRejected 0x01 0x01) = false := by decide
theorem test_wf_rejected_echo : Instr.wf Config.default (.rspRejected 0x05 0x02) = false := by decide
theorem test_wf_rejected : Instr.wf Config.default (.rspRejected 0x01 0x05) = true := by decide

/-! ## Decode: words written out from the tables of 30_encoding.md (first byte least significant) -/

theorem test_decode_getProtocolVersion : decodeTableWord 8 0x00 = some .getProtocolVersion := by decide
theorem test_decode_getHardwareVersion : decodeTableWord 8 0x0A = some .getHardwareVersion := by decide
theorem test_decode_selectObject : decodeTableWord 16 0x0206 = some (.selectObject .data) := by decide
theorem test_decode_createObject :
    decodeTableWord 48 0x123456780201 = some (.createObject .data 0x12345678) := by decide
theorem test_decode_setReceiptNotification :
    decodeTableWord 24 0x010202 = some (.setReceiptNotification 0x0102) := by decide
theorem test_decode_getMtu : decodeTableWord 8 0x07 = some .getMtu := by decide
theorem test_decode_writeChunk :
    decodeTableWord 40 0x0201DBC008 = some (.writeChunk [0xC0, 0xDB, 0x01, 0x02]) := by decide
theorem test_decode_getCrc : decodeTableWord 8 0x03 = some .getCrc := by decide
theorem test_decode_execute : decodeTableWord 8 0x04 = some .execute := by decide
theorem test_decode_rspGetProtocolVersion :
    decodeTableWord 32 0x02010060 = some (.rspGetProtocolVersion 2) := by decide
theorem test_decode_rspGetHardwareVersion :
    decodeTableWord 184 0x0000100000040000001000004141414100052840010A60 =
      some (.rspGetHardwareVersion 0x00052840 0x41414141 0x00100000 0x00040000 0x00001000) := by decide
theorem test_decode_rspSelectObject :
    decodeTableWord 120 0x123456780000001000000200010660 =
      some (.rspSelectObject 512 16 0x12345678) := by decide
theorem test_decode_rspCreateObject : decodeTableWord 24 0x010160 = some .rspCreateObject := by decide
theorem test_decode_rspSetReceiptNotification :
    decodeTableWord 24 0x010260 = some .rspSetReceiptNotification := by decide
theorem test_decode_rspGetMtu : decodeTableWord 40 0x0040010760 = some (.rspGetMtu 64) := by decide
theorem test_decode_rspWriteChunk : decodeTableWord 24 0x010860 = some .rspWriteChunk := by decide
theorem test_decode_rspGetCrc :
    decodeTableWord 88 0x749F785100000005010360 = some (.rspGetCrc 5 0x749F7851) := by decide
theorem test_decode_rspExecute : decodeTableWord 24 0x010460 = some .rspExecute := by decide
theorem test_decode_rspRejected : decodeTableWord 24 0x050160 = some (.rspRejected 0x01 0x05) := by decide
theorem test_decode_frameEnd : decodeTableWord 8 0xC0 = some .frameEnd := by decide
theorem test_decode_frameEscEnd : decodeTableWord 16 0xDCDB = some .frameEscEnd := by decide
theorem test_decode_frameEscEsc : decodeTableWord 16 0xDDDB = some .frameEscEsc := by decide
theorem test_decode_frameLiteral : decodeTableWord 8 0xDC = some (.frameLiteral 0xDC) := by decide
theorem test_decode_frameBadEscape : decodeTableWord 16 0xC0DB = some (.frameBadEscape 0xC0) := by decide

/-- The reserved kind byte 0 (R106) is no request. -/
theorem test_decode_reservedKind : decodeTableWord 16 0x0006 = none := by decide
/-- Bytes beyond the item a word opens with are dropped (log entry 15); the message decoder refuses them. -/
theorem test_decode_surplusDropped :
    decodeTableWord 16 0xFF07 = some .getMtu ∧
    decode Config.default .message [0x07, 0xFF] ≠ .ok .getMtu := by decide
/-- An envelope that echoes no request of the table is of no row (R106), whatever its result code. -/
theorem test_decode_reservedEcho :
    decodeTableWord 24 0x010560 = none ∧ decodeTableWord 24 0x020560 = none := by decide
/-- Placed for the engine, such an envelope fails the echo check (R106, R177). -/
theorem test_fetchWord_reservedEcho :
    (after (step (State.reset.withFetchWord 24 0x010560))).map (fun s => s.err.kind) =
      some (.protocolDesync (.echoMismatch 0x00 0x05)) := by decide
/-- The unused opcode 05 (R106) opens no message: it is a literal byte. -/
theorem test_decode_unknownOpcode :
    decode Config.default .message [0x05] = .error (.unknownOpcode 0x05) := by decide
/-- An `ESC` alone is a prefix (R92). -/
theorem test_decode_truncatedEscape : decode Config.default .symbol [0xDB] = .error .truncatedEscape := by
  decide
theorem test_decode_badLength :
    decode Config.default .message [0x01, 0x02, 0x00] = .error (.badLength 0x01 3) := by decide

/-- The placed word is the instruction the next step runs: at reset, GetMtu is framed (TR1). -/
theorem test_fetchWord_getMtu :
    (after (step (State.reset.withFetchWord 8 0x07))).map State.txBuf = some [0x07, 0xC0] := by decide
theorem test_fetchWord_rspGetMtu :
    (after (step (State.reset.withFetchWord 40 0x0040010760))).map (fun s => s.rsp.mtu) = some 64 := by
  decide
theorem test_fetchWord_frameEscEnd :
    (after (step (State.reset.withFetchWord 16 0xDCDB))).map State.rxBuf = some [0xC0] := by decide

/-! ## Frames (95_test_vectors.md 2.1, 2.2) -/

theorem test_frame_empty : frame Config.default [] = [0xC0] := by decide
theorem test_frame_fe7 : frame Config.default [0xDB, 0xDC] = [0xDB, 0xDD, 0xDC, 0xC0] := by decide
theorem test_frame_fe9 :
    frame Config.default [0x01, 0xC0, 0x02, 0xDB, 0x03] =
      [0x01, 0xDB, 0xDC, 0x02, 0xDB, 0xDD, 0x03, 0xC0] := by decide
theorem test_frame_hdlc :
    frame Config.hdlc [0x7E, 0x7D, 0x01, 0x5E] = [0x7D, 0x5E, 0x7D, 0x5D, 0x01, 0x5E, 0x7E] := by decide
theorem test_encodeFrame_appends : encodeFrame Config.default [0x01] [0xAA] = [0xAA, 0x01, 0xC0] := by
  decide
theorem test_hdlc_ok : Config.hdlc.Ok := by decide

/-- FD3 step by step: the `ESC` sets `rx_esc`, the substitute appends `C0`. -/
theorem test_receive_esc :
    (after (step (receiving [0xDB, 0xDC, 0xC0] []))).map (fun s => (s.rxEsc, s.rxBuf)) =
      some (true, []) := by decide
/-- FD13: the bad escape aborts and `00 C0` stays on the line. -/
theorem test_receive_badEscape :
    (after (step { receiving [0x40, 0x00, 0xC0] [] with rxEsc := true })).map
        (fun s => (s.upc, s.err.kind, s.rx, s.rxEsc)) =
      some (.mf, .framing (.badEscape 0x40), [.byte 0x00, .byte 0xC0], true) := by decide
/-- FD20: `RX_CAP` 3, a fourth byte. -/
theorem test_receive_overflow :
    (after (exec (.frameLiteral 0x04) (capped 3 [0x01, 0x02, 0x03]))).map (fun s => (s.err.kind, s.rxBuf)) =
      some (.framing .overflow, [0x01, 0x02, 0x03]) := by decide

/-! ## Requests: the frame in `tx_buf` (95_test_vectors.md 2.3) -/

theorem test_request_getProtocolVersion :
    (after (exec .getProtocolVersion State.reset)).map State.txBuf = some [0x00, 0xC0] := by decide
/-- RQ2: the message is encoded; R162 sends nothing. -/
theorem test_request_getHardwareVersion :
    (after (exec .getHardwareVersion State.reset)).map (fun s => (s.phase, s.txBuf, s.txLog)) =
      some (.encoded [0x0A], [], []) := by decide
/-- RQ2: its frame. -/
theorem test_frame_getHardwareVersion :
    frame Config.default (encReq Config.default .getHardwareVersion) = [0x0A, 0xC0] := by decide
theorem test_request_selectObject :
    (after (exec (.selectObject .command) State.reset)).map State.txBuf = some [0x06, 0x01, 0xC0] := by
  decide
theorem test_request_createObject_escaped :
    (after (exec (.createObject .data 0xDBC0) State.reset)).map State.txBuf =
      some [0x01, 0x02, 0xDB, 0xDC, 0xDB, 0xDD, 0x00, 0x00, 0xC0] := by decide
theorem test_request_setReceiptNotification :
    (after (exec (.setReceiptNotification 0x0102) State.reset)).map State.txBuf =
      some [0x02, 0x02, 0x01, 0xC0] := by decide
theorem test_request_writeChunk :
    (after (exec (.writeChunk [0xC0, 0xDB, 0x01, 0x02]) State.reset)).map State.txBuf =
      some [0x08, 0xDB, 0xDC, 0xDB, 0xDD, 0x01, 0x02, 0xC0] := by decide
theorem test_request_getCrc :
    (after (exec .getCrc State.reset)).map State.txBuf = some [0x03, 0xC0] := by decide
theorem test_request_execute :
    (after (exec .execute State.reset)).map State.txBuf = some [0x04, 0xC0] := by decide
/-- TR5: after its flush the request is outstanding. -/
theorem test_request_awaited :
    (after (exec .getMtu { atStep .m2 (.flush .getMtu) with tx := [.ok] })).map
        (fun s => (s.awaiting, s.outOp, s.outShape, s.txLog)) =
      some (true, 0x07, .mtu, [.flushed]) := by decide
/-- TR3: a failed write raises; no flush, nothing awaited. -/
theorem test_request_writeFails :
    (after (exec .getMtu { atStep .m2 (.write .getMtu) with txBuf := [0x07, 0xC0], tx := [.ioErr 1] })).map
        (fun s => (s.err.kind, s.awaiting, s.txLog)) =
      some (.transport .write, false, [.byte 0x07]) := by decide

/-! ## Responses (95_test_vectors.md 2.4) -/

theorem test_response_rs1 :
    (after (step (parsing 0x00 .protocolVersion [0x60, 0x00, 0x01, 0x01]))).map
        (fun s => (s.rsp.version, s.awaiting)) = some (1, false) := by decide
theorem test_response_rs4 :
    (after (step (parsing 0x07 .mtu [0x60, 0x07, 0x01, 0xFF, 0xFF]))).map (fun s => s.rsp.mtu) =
      some 65535 := by decide
theorem test_response_rs6 :
    (after (step (parsing 0x06 .selectResult
        [0x60, 0x06, 0x01, 0x00, 0x02, 0x00, 0x00, 0x10, 0x00, 0x00, 0x00, 0x78, 0x56, 0x34, 0x12]))).map
        (fun s => s.rsp.sel) = some ⟨512, 16, 0x12345678⟩ := by decide
theorem test_response_rs7 :
    (after (step (parsing 0x03 .crcResult
        [0x60, 0x03, 0x01, 0x05, 0x00, 0x00, 0x00, 0x51, 0x78, 0x9F, 0x74]))).map
        (fun s => s.rsp.crc) = some ⟨5, 0x749F7851⟩ := by decide
theorem test_response_rs9 :
    (after (step (parsing 0x04 .empty [0x60, 0x04, 0x01, 0x00]))).map (fun s => (s.phase, s.awaiting)) =
      some (.finish, false) := by decide
theorem test_response_rs9_strict :
    (after (step { parsing 0x04 .empty [0x60, 0x04, 0x01, 0x00] with
      cfg := { Config.default with strictLength := true } })).map (fun s => s.err.kind) =
      some (.malformedResponse (.longBody .empty 1)) := by decide
theorem test_response_rs13 :
    (after (step (parsing 0x07 .mtu [0x60, 0x06, 0x05]))).map (fun s => s.err.kind) =
      some (.protocolDesync (.echoMismatch 0x07 0x06)) := by decide
theorem test_response_rs18 :
    (after (step (parsing 0x07 .mtu [0x61]))).map (fun s => s.err.kind) =
      some (.protocolDesync (.badResponseOpcode 0x61)) := by decide
theorem test_response_rs21 :
    (after (step (parsing 0x01 .empty [0x60, 0x01, 0x0B, 0x07]))).map (fun s => s.err.kind) =
      some (.deviceRejection 0x0B (some .extendedError)) := by decide
theorem test_response_rs22 :
    (after (step (parsing 0x01 .empty [0x60, 0x01, 0x63]))).map (fun s => s.err.kind) =
      some (.deviceRejection 0x63 none) := by decide
theorem test_response_rs27 :
    (after (step (parsing 0x06 .selectResult
        [0x60, 0x06, 0x01, 0x00, 0x10, 0x00, 0x00, 0x00, 0x00, 0x00, 0x00, 0x00, 0x00, 0x00]))).map
        (fun s => s.err.kind) = some (.malformedResponse (.shortBody .selectResult 11)) := by decide

/-! ## CRC (95_test_vectors.md 2.5) -/

theorem test_crc_check :
    crc32 Config.default [0x31, 0x32, 0x33, 0x34, 0x35, 0x36, 0x37, 0x38, 0x39] 0 = 0xCBF43926 := by decide +kernel
theorem test_crc_chained : crc32 Config.default [0x36, 0x37, 0x38, 0x39] 0xCBF53A1C = 0xCBF43926 := by decide +kernel
theorem test_crc_cr3 : crc32 Config.default [0x00] 0 = 0xD202EF8D := by decide

/-! ## The sequencer (95_test_vectors.md 2.6, part 3) -/

theorem test_padded_sq15 : paddedLength Config.default 1 = 4 := by decide
theorem test_padded_sq19 : paddedLength Config.default 4100 = 4100 := by decide
theorem test_fragments_sq30 :
    fragments 4 [0x00, 0x01, 0x02, 0x03, 0x04] = [[0x00, 0x01, 0x02, 0x03], [0x04]] := by decide
/-- SQ24: 12 bytes left, `max_size` 8. -/
theorem test_chunk_sq24 :
    (after (step { atStep .m10 .enter with maxSize := 8, fwPlen := 12 })).map
        (fun s => (s.chunkLen, s.phase)) = some (8, .send (.createObject .data 8)) := by decide
/-- P3: version 2 fails the session at M1. -/
theorem test_version_mismatch :
    (after (step { atStep .m1 .finish with rsp := { Rsp.reset with version := 2 } })).map
        (fun s => (s.seq, s.upc, s.err)) =
      some (.failed, .mf, { kind := .versionMismatch 2, step := .m1 }) := by decide
/-- P8: MTU 4 faults at M6, with `crc_acc` loaded. -/
theorem test_mtu_too_small :
    (after (step { atStep .m6 .enter with mtu := 4, crcAcc := 7 })).map (fun s => (s.err, s.crcAcc)) =
      some ({ kind := .modelFault (.mtuTooSmall 4), step := .m6 }, 0) := by decide
/-- P5: one wrong bit in the reported CRC. -/
theorem test_crc_mismatch :
    (after (step { atStep .m7 .finish with
        crcAcc := 0xB63CFBCD, rsp := { Rsp.reset with crc := ⟨4, 0xB63CFBCC⟩ } })).map (fun s => s.err) =
      some { kind := .integrity 0xB63CFBCD 0xB63CFBCC, step := .m7 } := by decide
/-- P1 at M11: `fwpad[8 .. 11]` is `A8 A9 FF FF`. -/
theorem test_fwpad_read :
    memRead { State.reset with
        fwMem := [0xA0, 0xA1, 0xA2, 0xA3, 0xA4, 0xA5, 0xA6, 0xA7, 0xA8, 0xA9], fwLen := 10, fwPlen := 12 }
      .fwpad 8 4 = some [0xA8, 0xA9, 0xFF, 0xFF] := by decide

/-! ## Witnesses: concrete states and operands that meet the hypotheses of a statement -/

/-- M2 with its request framed. -/
def writing : State := { atStep .m2 (.write .getMtu) with seq := .connecting, txBuf := [0x07, 0xC0], tx := [.ok] }

/-- M6 on the loop test of a stream of five bytes, four at a time (program P1). -/
def streamingDat : State :=
  { atStep .m6 .stream with
    seq := .datStreaming, mtu := 11, initLen := 5, initMem := [0xC0, 0xDB, 0x01, 0x02, 0x03],
    strLen := 5, fragMax := 4, tx := [.ok, .ok, .ok, .ok] }

/-- M11 on the loop test of the first chunk of program P1. -/
def streamingBin : State :=
  { atStep .m11 .stream with
    seq := .binStreaming, mtu := 11, maxSize := 8, fwLen := 10, fwPlen := 12, chunkLen := 8,
    strSpace := .fwpad, strLen := 8, fragMax := 4,
    fwMem := [0xA0, 0xA1, 0xA2, 0xA3, 0xA4, 0xA5, 0xA6, 0xA7, 0xA8, 0xA9] }

/-- M7 with the device's CRC of an empty init packet (program P9). -/
def checkingDat : State := { atStep .m7 .finish with seq := .datStreaming }

/-- M12 with the device's CRC of an image of four bytes `FF` (vector CR6). -/
def checkingBin : State :=
  { atStep .m12 .finish with
    seq := .binStreaming, maxSize := 4, fwLen := 4, fwPlen := 4, chunkLen := 4,
    fwMem := [0xFF, 0xFF, 0xFF, 0xFF], crcAcc := 0xFFFFFFFF,
    rsp := { Rsp.reset with crc := ⟨4, 0xFFFFFFFF⟩ } }

/-- M10 with an exchange in progress: the answer to CreateObject is awaited. -/
def awaitingCreate : State :=
  { atStep .m10 .recv with
    seq := .binSelected, maxSize := 8, fwLen := 10, fwPlen := 12, chunkLen := 8, awaiting := true,
    outOp := 0x01, outShape := .empty,
    fwMem := [0xA0, 0xA1, 0xA2, 0xA3, 0xA4, 0xA5, 0xA6, 0xA7, 0xA8, 0xA9], rx := [.byte 0x60] }

theorem witness_BadFramingBytesAreRefused :
    { Config.default with endByte := 0xDB }.endByte = { Config.default with endByte := 0xDB }.escByte ∧
    { Config.default with subEnd := 0xDD }.subEnd = { Config.default with subEnd := 0xDD }.subEsc ∧
    { Config.default with subEnd := 0xC0 }.subEnd = { Config.default with subEnd := 0xC0 }.endByte ∧
    { Config.default with subEsc := 0xC0 }.subEsc = { Config.default with subEsc := 0xC0 }.endByte ∧
    Config.default.Ok := by decide

theorem witness_DecodeOfEncodeIsIdentity :
    Config.default.Ok ∧ Config.default.shapeLen = ShapeLens.layout ∧
    Instr.wf Config.default (.createObject .data 0xFFFFFFFF) = true := by decide

theorem witness_RequestMessagesAreInjective :
    Config.default.requestOpcodes.Nodup ∧ Config.default.kindCommand ≠ Config.default.kindData ∧
    encReq Config.default (.selectObject .data) = encReq Config.default (.selectObject .data) := by decide

theorem witness_TerminatorOccursOnlyAtFrameEnd : Config.hdlc.framingOk := by decide

theorem witness_FrameIsInjective :
    Config.default.framingOk ∧ frame Config.default [0xC0] = frame Config.default [0xC0] := by decide

theorem witness_CrcIsIteratedStep :
    crc32 Config.default ([0x31, 0x32].take 0) 0 = 0 ∧
    ∀ (i : Nat) (h : i < [(0x31 : Byte), 0x32].length),
      crc32 Config.default ([0x31, 0x32].take (i + 1)) 0 =
        crcStep Config.default (crc32 Config.default ([0x31, 0x32].take i) 0) [(0x31 : Byte), 0x32][i] := by
  refine ⟨rfl, fun i h => ?_⟩
  have : i = 0 ∨ i = 1 := by simp at h; omega
  rcases this with rfl | rfl <;> rfl

theorem witness_OneByteChangeChangesCrc : Config.default.crc = .ieee ∧ (0x00 : Byte) ≠ 0x80 := by decide

theorem witness_RequestsFillScratchBuffer : notSending State.reset :=
  ⟨fun _ => by simp [State.reset, State.resetWith], fun _ => by simp [State.reset, State.resetWith]⟩

theorem witness_FramedRequestIsWritten :
    Request.getMtu ≠ .getHardwareVersion ∧ writing.phase = .write .getMtu ∧ writing.tx = .ok :: [] ∧
    { writing with tx := [.ioErr 0] }.phase = .write .getMtu ∧
    { writing with tx := [.ioErr 0] }.tx = .ioErr 0 :: [] := by decide

theorem witness_FlushedRequestIsAwaited :
    { writing with phase := .flush .getMtu }.phase = .flush .getMtu ∧
    { writing with phase := .flush .getMtu }.tx = .ok :: [] ∧ (∀ d, Request.getMtu ≠ .writeChunk d) ∧
    Request.getMtu ≠ .getHardwareVersion :=
  ⟨rfl, rfl, by simp, by simp⟩

theorem witness_FlushedChunkIsNotAwaited :
    { writing with phase := .flush (.writeChunk [0x01]) }.phase = .flush (.writeChunk [0x01]) ∧
    { writing with phase := .flush (.writeChunk [0x01]) }.tx = .ok :: [] := by decide

theorem witness_FailedFlushAborts :
    Request.getMtu ≠ .getHardwareVersion ∧
    { writing with phase := .flush .getMtu, tx := [.ioErr 2] }.phase = .flush .getMtu ∧
    { writing with phase := .flush .getMtu, tx := [.ioErr 2] }.tx = .ioErr 2 :: [] := by decide

theorem witness_SilentStreamBlocks :
    ((receiving [] []).phase = .recv ∧ (receiving [] []).rx = []) ∧
    ∃ r, r ≠ .getHardwareVersion ∧
      ((atStep .m2 (.flush .getMtu)).phase = .write r ∨ (atStep .m2 (.flush .getMtu)).phase = .flush r) ∧
      (atStep .m2 (.flush .getMtu)).tx = [] := ⟨⟨rfl, rfl⟩, .getMtu, by simp, .inr rfl, rfl⟩

/-- The payloads of the clauses, at the lengths where they meet: 0, 1, 2, 3 bytes, a body one byte short,
exact and one byte long. -/
theorem witness_EnvelopeChecksInOrder :
    (parsing 0x07 .mtu []).phase = .parse ∧ halted (parsing 0x07 .mtu []) = false ∧
    (parsing 0x07 .mtu []).rxBuf = [] ∧
    (parsing 0x07 .mtu [0x61]).rxBuf = 0x61 :: [] ∧ (0x61 : Byte) ≠ Config.default.opResponse ∧
    (parsing 0x07 .mtu [0x60]).rxBuf = [Config.default.opResponse] ∧
    (parsing 0x07 .mtu [0x60, 0x06]).rxBuf = Config.default.opResponse :: 0x06 :: [] ∧
    (0x06 : Byte) ≠ (parsing 0x07 .mtu []).outOp ∧
    (parsing 0x07 .mtu [0x60, 0x07]).rxBuf = [Config.default.opResponse, 0x07] ∧
    (parsing 0x07 .mtu [0x60, 0x07, 0x00]).rxBuf = Config.default.opResponse :: 0x07 :: 0x00 :: [] ∧
    (0x00 : Byte) ≠ Config.default.resSuccess ∧
    (parsing 0x07 .mtu [0x60, 0x07, 0x01, 0x40]).rxBuf =
      Config.default.opResponse :: 0x07 :: Config.default.resSuccess :: [0x40] ∧
    [(0x40 : Byte)].length < Config.default.shapeLenOf .mtu ∧
    [(0x40 : Byte), 0x00].length = Config.default.shapeLenOf .mtu ∧
    { Config.default with strictLength := true }.strictLength = true ∧
    { Config.default with strictLength := true }.shapeLenOf .mtu < [(0x40 : Byte), 0x00, 0x00].length := by
  decide

/-- Room for exactly one more byte. -/
theorem witness_FrameSymbolsBuildPayload :
    ∀ n ∈ (capped 3 [0x01, 0x02]).cfg.rxCap, (capped 3 [0x01, 0x02]).rxBuf.length < n := by decide

theorem witness_FullReceiveBufferAborts :
    (capped 3 [0x01, 0x02, 0x03]).cfg.rxCap = some 3 ∧ 3 ≤ (capped 3 [0x01, 0x02, 0x03]).rxBuf.length := by
  decide

theorem witness_EndEventsAbortReceive :
    (receiving [] [.eof]).phase = .recv ∧ halted (receiving [] [.eof]) = false ∧
    (receiving [] [.eof]).rx = .eof :: [] ∧ (receiving [] [.timeout]).rx = .timeout :: [] ∧
    (receiving [] [.ioErr]).rx = .ioErr :: [] := by decide

theorem witness_StepRunsDecodedInstruction :
    halted writing = false ∧ writing.phase = .write .getMtu ∧
    (receiving [0xC0] []).phase = .recv ∧ (receiving [0xC0] []).rxEsc = false ∧
    (receiving [0xC0] []).rx = .byte 0xC0 :: [] ∧ decode Config.default .symbol [0xC0] = .ok .frameEnd ∧
    { receiving [0xDC] [] with rxEsc := true }.rx = .byte 0xDC :: [] ∧
    decode Config.default .symbol [Config.default.escByte, 0xDC] = .ok .frameEscEnd ∧
    (receiving [0xDB] []).rx = .byte Config.default.escByte :: [] ∧
    Config.default.escByte ≠ Config.default.endByte ∧
    (parsing 0x04 .empty [0x60, 0x04, 0x01]).phase = .parse ∧
    decode Config.default (.envelope 0x04 .empty) [0x60, 0x04, 0x01] = .ok .rspExecute := by decide

/-- The frame of FD7 on the line, with a byte after it, under a buffer the payload just fits. -/
def receivingFd7 : State :=
  { capped 5 [] with rx := (receiving [0x01, 0xDB, 0xDC, 0x02, 0xDB, 0xDD, 0x03, 0xC0] [.byte 0x60]).rx }

theorem witness_DecoderRecoversFramedPayload :
    receivingFd7.phase = .recv ∧ halted receivingFd7 = false ∧ receivingFd7.rxBuf = [] ∧
    receivingFd7.rxEsc = false ∧ receivingFd7.cfg.framingOk ∧
    (∀ n ∈ receivingFd7.cfg.rxCap, [(0x01 : Byte), 0xC0, 0x02, 0xDB, 0x03].length ≤ n) ∧
    receivingFd7.rx =
      (frame receivingFd7.cfg [0x01, 0xC0, 0x02, 0xDB, 0x03]).map RxEvent.byte ++ [.byte 0x60] := by decide

/-- FD3: three steps, all but the last inside the decoder. -/
theorem witness_DecoderAcceptsOnlyFrames :
    (receiving [0xDB, 0xDC, 0xC0] []).phase = .recv ∧ halted (receiving [0xDB, 0xDC, 0xC0] []) = false ∧
    (receiving [0xDB, 0xDC, 0xC0] []).rxBuf = [] ∧ (receiving [0xDB, 0xDC, 0xC0] []).rxEsc = false ∧
    (receiving [0xDB, 0xDC, 0xC0] []).cfg.framingOk ∧
    (∃ t, run 3 (receiving [0xDB, 0xDC, 0xC0] []) = .next t ∧ t.phase = .parse) ∧
    ∀ k u, k < 3 → run k (receiving [0xDB, 0xDC, 0xC0] []) = .next u → u.phase = .recv := by
  refine ⟨rfl, rfl, rfl, rfl, by decide, ⟨_, rfl, rfl⟩, fun k u hk h => ?_⟩
  have : k = 0 ∨ k = 1 ∨ k = 2 := by omega
  rcases this with rfl | rfl | rfl <;> (cases h; rfl)

theorem witness_ErrorCodesFollowTable : State.reset.errValid = false := by decide

/-- A failure that keeps everything; M9 rejecting the 0 it stores over 8 (R261); M6 failing after loading 0
over 7 (R258). -/
theorem witness_FailingStepIsPrecise :
    (∃ t, step (receiving [] [.eof]) = .next t ∧ (receiving [] [.eof]).upc ≠ .mf ∧ t.upc = .mf) ∧
    (∃ t, step { atStep .m9 .finish with maxSize := 8 } = .next t ∧ t.upc = .mf ∧ t.maxSize = 0) ∧
    ∃ t, step { atStep .m6 .enter with mtu := 4, crcAcc := 7 } = .next t ∧ t.upc = .mf ∧ t.crcAcc = 0 :=
  ⟨⟨_, rfl, by decide, rfl⟩, ⟨_, rfl, rfl, rfl⟩, ⟨_, rfl, rfl, rfl⟩⟩

theorem witness_HaltedEngineDoesNothing :
    (atStep .m14 .enter).upc = .m14 ∧ (atStep .mf .recv).upc = .mf := by decide

/-- `Start` elsewhere and none pending; the largest lengths that fit; the smallest init packet and the smallest
image that do not (vectors SQ20 and SQ21). -/
theorem witness_StartIsTakenAtM0 :
    (0 < State.reset.cfg.padAlign ∧ writing.upc ≠ .m0 ∧ State.reset.upc = .m0 ∧
      State.reset.phase = .enter ∧ State.reset.cmd = none) ∧
    (∃ (s : State) (i f : Bytes), s.upc = .m0 ∧ s.phase = .enter ∧ s.cmd = some ⟨i, f⟩ ∧ i.length < 2 ^ 32 ∧
      (f.length + s.cfg.padAlign - 1) / s.cfg.padAlign * s.cfg.padAlign < 2 ^ 32) ∧
    (∃ (s : State) (i f : Bytes), s.upc = .m0 ∧ s.phase = .enter ∧ s.cmd = some ⟨i, f⟩ ∧
      2 ^ 32 ≤ i.length) ∧
    ∃ (s : State) (i f : Bytes), s.upc = .m0 ∧ s.phase = .enter ∧ s.cmd = some ⟨i, f⟩ ∧
      2 ^ 32 ≤ (f.length + s.cfg.padAlign - 1) / s.cfg.padAlign * s.cfg.padAlign := by
  have key : ∀ n, ∃ l : Bytes, l.length = n := fun n => ⟨List.replicate n 0, List.length_replicate⟩
  obtain ⟨i, hi⟩ := key 4294967295
  obtain ⟨f, hf⟩ := key 4294967292
  obtain ⟨i', hi'⟩ := key 4294967296
  obtain ⟨f', hf'⟩ := key 4294967293
  have ha : Config.default.padAlign = 4 := rfl
  refine ⟨by decide, ⟨{ State.reset with cmd := some ⟨i, f⟩ }, i, f, rfl, rfl, rfl, by omega, ?_⟩,
    ⟨{ State.reset with cmd := some ⟨i', []⟩ }, i', [], rfl, rfl, rfl, by omega⟩,
    ⟨{ State.reset with cmd := some ⟨[], f'⟩ }, [], f', rfl, rfl, rfl, ?_⟩⟩
  · change (f.length + Config.default.padAlign - 1) / Config.default.padAlign * Config.default.padAlign < _
    rw [ha, hf]; decide
  · change _ ≤ (f'.length + Config.default.padAlign - 1) / Config.default.padAlign * Config.default.padAlign
    rw [ha, hf']; decide

theorem witness_StepsTurnToTheirRequests :
    ∀ u ∈ [Upc.m1, .m2, .m3, .m4, .m5, .m7, .m8, .m9, .m12, .m13],
      (atStep u .enter).phase = .enter ∧ (atStep u .enter).upc = u := by decide

theorem witness_ConnectStepsFinish :
    (∀ u ∈ [Upc.m1, .m2, .m3], (atStep u .finish).phase = .finish ∧ (atStep u .finish).upc = u) ∧
    (atStep .m1 .finish).rsp.version ≠ (atStep .m1 .finish).cfg.supportedVersion ∧
    { atStep .m1 .finish with rsp := { Rsp.reset with version := 1 } }.rsp.version =
      (atStep .m1 .finish).cfg.supportedVersion := by decide

theorem witness_DatStepsFinish :
    (∀ u ∈ [Upc.m4, .m5, .m7, .m8], (atStep u .finish).phase = .finish ∧ (atStep u .finish).upc = u) ∧
    (atStep .m7 .finish).rsp.crc.crc = (atStep .m7 .finish).crcAcc ∧
    { atStep .m7 .finish with crcAcc := 1 }.rsp.crc.crc ≠ { atStep .m7 .finish with crcAcc := 1 }.crcAcc := by
  decide

theorem witness_BinStepsFinish :
    (∀ u ∈ [Upc.m9, .m10, .m12, .m13], (atStep u .finish).phase = .finish ∧ (atStep u .finish).upc = u) ∧
    (atStep .m9 .finish).rsp.sel.maxSize = 0 ∧ checkingBin.rsp.crc.crc = checkingBin.crcAcc ∧
    { atStep .m9 .finish with rsp := { Rsp.reset with sel := ⟨1, 0, 0⟩ } }.rsp.sel.maxSize ≠ 0 ∧
    (atStep .m10 .enter).phase = .enter ∧ (atStep .m10 .enter).fwOff = (atStep .m10 .enter).fwPlen ∧
    { atStep .m10 .enter with fwOff := 3, fwPlen := 4 }.fwOff.toNat <
      { atStep .m10 .enter with fwOff := 3, fwPlen := 4 }.fwPlen.toNat ∧
    { atStep .m12 .finish with crcAcc := 1 }.rsp.crc.crc ≠ { atStep .m12 .finish with crcAcc := 1 }.crcAcc := by
  decide

/-- The MTU values on the two sides of the bound. -/
theorem witness_StreamsOpenOrFault :
    (∀ u ∈ [Upc.m6, .m11], (atStep u .enter).phase = .enter ∧ (atStep u .enter).upc = u) ∧
    4 < { atStep .m6 .enter with mtu := 5 }.mtu.toNat ∧ 4 < { atStep .m11 .enter with mtu := 5 }.mtu.toNat ∧
    { atStep .m6 .enter with mtu := 4 }.mtu.toNat ≤ 4 := by decide

/-- The fragment that fills an odd MTU, and one for an even MTU. -/
theorem witness_ChunkFrameFitsMtu :
    (([0xC0, 0xDB] : Bytes).length : Int) ≤ fragMaxOf 7 ∧ (([0xC0] : Bytes).length : Int) ≤ fragMaxOf 6 ∧
    2 ∣ (6 : U16).toNat := by decide

theorem witness_FragmentsCoverStream : 0 < 1 := by decide

theorem witness_StreamSendsEveryFragment :
    (streamingDat.upc = .m6 ∨ streamingDat.upc = .m11) ∧ streamingDat.phase = .stream ∧
    1 ≤ streamingDat.fragMax ∧ streamingDat.strPtr.toNat ≤ streamingDat.strLen.toNat ∧
    memRead streamingDat streamingDat.strSpace (streamingDat.strBase.toNat + streamingDat.strPtr.toNat)
      (streamingDat.strLen.toNat - streamingDat.strPtr.toNat) = some [0xC0, 0xDB, 0x01, 0x02, 0x03] ∧
    streamingDat.tx = List.replicate
      (2 * (fragments streamingDat.fragMax.toNat [0xC0, 0xDB, 0x01, 0x02, 0x03]).length) .ok ++ [] := by
  decide

/-- An image of 10 bytes padded to 12: the last image byte, the first and last pad byte, the first index
outside. -/
theorem witness_PaddedImageIsView :
    streamingBin.fwMem.length = streamingBin.fwLen.toNat ∧
    streamingBin.fwLen.toNat ≤ streamingBin.fwPlen.toNat ∧ 9 < streamingBin.fwMem.length ∧
    streamingBin.fwMem.length ≤ 10 ∧ 11 < streamingBin.fwPlen.toNat ∧ streamingBin.fwPlen.toNat ≤ 12 := by
  decide

theorem witness_PaddedLengthIsLeastMultiple :
    0 < Config.default.padAlign ∧ Config.default.padAlign ∣ 4100 ∧ 4097 ≤ 4100 := by decide

/-- TR2: GetProtocolVersion with its answer on the line. -/
def exchangingTr2 : State :=
  { atStep .m1 (.send .getProtocolVersion) with
    tx := [.ok, .ok], rx := (receiving [0x60, 0x00, 0x01, 0x01, 0xC0] []).rx }

theorem witness_ExchangeCompletes :
    halted exchangingTr2 = false ∧ exchangingTr2.phase = .send .getProtocolVersion ∧
    (∀ d, Request.getProtocolVersion ≠ .writeChunk d) ∧
    Request.getProtocolVersion ≠ .getHardwareVersion ∧ exchangingTr2.cfg.framingOk ∧
    (∀ n ∈ exchangingTr2.cfg.rxCap, [(0x60 : Byte), 0x00, 0x01, 0x01].length ≤ n) ∧
    exchangingTr2.tx = .ok :: .ok :: [] ∧
    exchangingTr2.rx = (frame exchangingTr2.cfg [0x60, 0x00, 0x01, 0x01]).map RxEvent.byte ++ [] ∧
    decodeResponse exchangingTr2.cfg (opcodeOf exchangingTr2.cfg .getProtocolVersion)
      (shapeFor .getProtocolVersion) [0x60, 0x00, 0x01, 0x01] = .ok (.rspGetProtocolVersion 1) ∧
    (∀ e w, Instr.rspGetProtocolVersion 1 ≠ .rspRejected e w) :=
  ⟨rfl, rfl, by simp, by simp, by decide, by decide, rfl, rfl, by decide, by simp⟩

/-- The whole exchange of TR2, run. -/
theorem test_exchange_tr2 :
    (after (run 9 exchangingTr2)).map
        (fun s => (s.rsp.version, s.outOp, s.awaiting, s.rx, s.txLog)) =
      some (1, 0x00, false, [], [.byte 0x00, .byte 0xC0, .flushed]) := by decide

theorem witness_NewSessionMeetsInvariant : 0 < Config.default.padAlign := by decide

theorem session_awaitingCreate : SessionInv awaitingCreate := by
  refine ⟨⟨.inl rfl, ⟨_, rfl, ?_⟩, by decide⟩, ⟨fun _ => by decide, fun _ _ => ⟨_, rfl, rfl, rfl⟩⟩,
    ⟨by decide, by decide, fun _ _ => by decide, fun _ => by decide, fun _ => by decide, ?_, ?_⟩,
    ⟨?_, ?_, fun _ => by decide, ?_, ?_⟩⟩ <;>
    simp [exchangePhase, awaitingCreate, atStep]

theorem session_streamingBin : SessionInv streamingBin := by
  refine ⟨⟨?_, ?_, by decide⟩, ⟨fun _ => by decide, ?_⟩,
    ⟨by decide, by decide, fun _ _ => by decide, fun _ => by decide, fun _ => by decide, ?_, fun _ _ => ?_⟩,
    ⟨?_, ?_, ?_, fun _ _ => by decide, ?_⟩⟩
  case refine_5 => exact ⟨rfl, rfl, rfl, by decide, by decide, by decide, by simp [fragInHand, streamingBin, atStep]⟩
  all_goals simp [seqFits, phaseFits, streamPhase, streamingBin, atStep]

theorem session_checkingDat : SessionInv checkingDat := by
  refine ⟨⟨rfl, ⟨_, rfl, ?_⟩, by decide⟩, ⟨fun _ => by decide, ?_⟩,
    ⟨by decide, by decide, fun _ _ => by decide, ?_, ?_, ?_, ?_⟩,
    ⟨?_, fun _ => rfl, ?_, ?_, ?_⟩⟩ <;>
    simp [exchangePhase, checkingDat, atStep, inFirmware, inChunk]

theorem session_checkingBin : SessionInv checkingBin := by
  refine ⟨⟨rfl, ⟨_, rfl, ?_⟩, by decide⟩, ⟨fun _ => by decide, ?_⟩,
    ⟨by decide, by decide, fun _ _ => by decide, fun _ => by decide, fun _ => by decide, ?_, ?_⟩,
    ⟨?_, ?_, ?_, ?_, fun _ => by decide +kernel⟩⟩ <;>
    simp [exchangePhase, checkingBin, atStep]

theorem witness_StepKeepsControl :
    ∃ t, ControlInv awaitingCreate ∧ step awaitingCreate = .next t ∧ t.rxBuf = [0x60] :=
  ⟨_, session_awaitingCreate.control, rfl, rfl⟩

theorem witness_StepKeepsExchange :
    ∃ t, ControlInv awaitingCreate ∧ ExchangeInv awaitingCreate ∧ step awaitingCreate = .next t ∧
      t.awaiting = true :=
  ⟨_, session_awaitingCreate.control, session_awaitingCreate.exchange, rfl, rfl⟩

theorem witness_StepKeepsData :
    ∃ t, ControlInv streamingBin ∧ DataInv streamingBin ∧ step streamingBin = .next t ∧
      t.phase = .send (.writeChunk [0xA0, 0xA1, 0xA2, 0xA3]) :=
  ⟨_, session_streamingBin.control, session_streamingBin.data, rfl, rfl⟩

theorem witness_StepKeepsCrcCoverage :
    ∃ t, ControlInv streamingBin ∧ DataInv streamingBin ∧ CrcInv streamingBin ∧
      step streamingBin = .next t ∧ t.crcAcc = 0 :=
  ⟨_, session_streamingBin.control, session_streamingBin.data, session_streamingBin.crc, rfl, rfl⟩

theorem witness_EnvironmentKeepsInvariant : SessionInv streamingBin := session_streamingBin

theorem witness_SessionNeverFaults : ControlInv streamingBin ∧ DataInv streamingBin :=
  ⟨session_streamingBin.control, session_streamingBin.data⟩

theorem witness_NoWriteWhileAwaiting :
    ∃ t, ControlInv writing ∧ ExchangeInv writing ∧ step writing = .next t ∧ t.txLog ≠ writing.txLog := by
  refine ⟨_, ⟨rfl, ⟨_, rfl, ?_⟩, by decide⟩, ⟨fun _ => by decide, ?_⟩, rfl, by decide⟩ <;>
    simp [exchangePhase, writing, atStep]

theorem witness_ExecuteOnlyAfterVerifiedCrc :
    (∃ t, SessionInv checkingDat ∧ step checkingDat = .next t ∧ checkingDat.upc = .m7 ∧ t.upc = .m8) ∧
    ∃ t, SessionInv checkingBin ∧ step checkingBin = .next t ∧ checkingBin.upc = .m12 ∧ t.upc = .m13 :=
  ⟨⟨_, session_checkingDat, rfl, rfl, rfl⟩, ⟨_, session_checkingBin, rfl, rfl, rfl⟩⟩

theorem witness_UpcFollowsMicroprogram : ∃ t, step checkingDat = .next t ∧ t.upc = .m8 := ⟨_, rfl, rfl⟩

theorem witness_NegotiatedValuesHaveOneWriter :
    (∃ t, step { atStep .m2 .finish with rsp := { Rsp.reset with mtu := 64 } } = .next t ∧ t.mtu ≠ 0) ∧
    ∃ t, step { atStep .m9 .finish with rsp := { Rsp.reset with sel := ⟨8, 0, 0⟩ } } = .next t ∧
      t.maxSize ≠ 0 :=
  ⟨⟨_, rfl, by decide⟩, ⟨_, rfl, by decide⟩⟩

theorem witness_CrcAccumulatorWriters :
    (∃ t, step { atStep .m6 .enter with mtu := 64, crcAcc := 7 } = .next t ∧ t.crcAcc ≠ 7) ∧
    (∃ t, step { atStep .m9 .finish with crcAcc := 7, rsp := { Rsp.reset with sel := ⟨8, 0, 0⟩ } } = .next t ∧
      t.crcAcc ≠ 7) ∧
    ∃ t, step (atStep .m6 (.sent [0x01])) = .next t ∧ t.crcAcc ≠ 0 :=
  ⟨⟨_, rfl, by decide⟩, ⟨_, rfl, by decide⟩, ⟨_, rfl, by decide +kernel⟩⟩

theorem witness_InputsAndParametersAreConstant :
    ∃ t, step streamingBin = .next t ∧ streamingBin.upc ≠ .m0 := ⟨_, rfl, by decide⟩

theorem witness_UnreadMembersHaveNoInfluence :
    hideUnread { State.reset with rsp := { Rsp.reset with crc := ⟨5, 0⟩ } } = hideUnread State.reset := by
  decide

end Sys2Proof.Tests
end

section
/-! PROOFS. Reset, boot and the environment against the session invariant, and the item that one step of a running
engine executes. -/

namespace Sys2Proof.Machine

/-! ## Boot (R10) -/

/-- A configuration is refused exactly when it breaks a constraint of R9 and R10. -/
theorem boot_eq_none_iff (c : Config) : boot c = none ↔ ¬ c.Ok := by
  simp [boot]

theorem boot_of_ok {c : Config} (h : c.Ok) : boot c = some (State.resetWith c) := if_pos h

/-- Settles O3: a broken framing constraint contradicts the first member of `Config.Ok`. -/
theorem badFramingBytesAreRefused : Obligations.BadFramingBytesAreRefused := by
  refine fun c => ⟨fun hbad => (boot_eq_none_iff c).mpr fun hok => ?_, boot_of_ok⟩
  obtain ⟨hend, hsub, hsubEnd, hsubEsc⟩ : c.framingOk := hok.1
  rcases hbad with h | h | h | h
  · exact hend h
  · exact hsub h
  · exact hsubEnd h
  · exact hsubEsc h

/-! ## The session invariant at M0 (R40) -/

/-- A session that waits at M0 with nothing received and nothing outstanding is in order: every other clause
of the invariant is about a later step. -/
theorem SessionInv.of_idle {s : State} (hupc : s.upc = .m0) (hphase : s.phase = .enter)
    (hseq : s.seq = .idle) (herr : s.errValid = false) (hawait : s.awaiting = false)
    (hrx : s.rxBuf = []) (halign : 0 < s.cfg.padAlign) : SessionInv s where
  control :=
    { seq := by simp [seqFits, hupc, hseq]
      phase := by simp [phaseFits, hupc, hphase]
      err := by simp [herr, hupc] }
  exchange :=
    { awaiting := by simp [hawait, hphase]
      outstanding := by simp [hphase] }
  data :=
    { align := halign
      rxCap := by simp [hrx]
      memory := fun h => absurd hupc h
      firmware := by simp [inFirmware, hupc]
      chunk := by simp [inChunk, hupc]
      dat := by simp [hupc]
      bin := by simp [hupc] }
  crc :=
    { dat := by simp [hupc]
      datDone := by simp [hupc]
      chunkStart := by simp [hupc]
      chunk := by simp [hupc]
      chunkDone := by simp [hupc] }

theorem sessionInv_resetWith {c : Config} (h : 0 < c.padAlign) : SessionInv (State.resetWith c) :=
  .of_idle rfl rfl rfl rfl rfl rfl h

theorem sessionInv_newSession {s : State} (h : 0 < s.cfg.padAlign) : SessionInv (newSession s) :=
  .of_idle rfl rfl rfl rfl rfl rfl h

/-- Settles O46: a reset state and a new Session both wait at M0. -/
theorem newSessionMeetsInvariant : Obligations.NewSessionMeetsInvariant :=
  ⟨fun _ => sessionInv_resetWith, sessionInv_resetWith (by decide), fun _ => sessionInv_newSession⟩

/-! ## What the environment does (R7, R8) -/

/-- `Start` is taken at M0 when none is pending, and ignored otherwise (R252). -/
theorem hostStart_cases (i f : Bytes) (s : State) :
    (s.upc = .m0 ∧ s.cmd = none ∧
      hostStart i f s = { s with cmd := some { initBytes := i, fwBytes := f } }) ∨
    (¬ (s.upc = .m0 ∧ s.cmd = none) ∧ hostStart i f s = s) := by
  by_cases h : s.upc = .m0 ∧ s.cmd = none
  · exact .inl ⟨h.1, h.2, if_pos h⟩
  · exact .inr ⟨h, if_neg h⟩

/-- The streaming registers' invariant reads neither the pending command nor the stream's two scripts. -/
theorem StreamInv.withEnvironment {space : Space} {base len : U32} {s : State}
    (h : StreamInv space base len s) (cmd : Option StartCmd) (rx : List RxEvent) (tx : List TxResult) :
    StreamInv space base len { s with cmd := cmd, rx := rx, tx := tx } where
  spaceEq := h.spaceEq
  baseEq := h.baseEq
  lenEq := h.lenEq
  fragMax := h.fragMax
  progress := h.progress
  ptr := h.ptr
  frag := h.frag

/-- The session invariant reads neither the pending command nor the stream's two scripts: the environment may
set them to anything. -/
theorem SessionInv.withEnvironment {s : State} (h : SessionInv s) (cmd : Option StartCmd)
    (rx : List RxEvent) (tx : List TxResult) : SessionInv { s with cmd := cmd, rx := rx, tx := tx } where
  control := ⟨h.control.seq, h.control.phase, h.control.err⟩
  exchange := ⟨h.exchange.awaiting, h.exchange.outstanding⟩
  data :=
    { align := h.data.align
      rxCap := h.data.rxCap
      memory := h.data.memory
      firmware := h.data.firmware
      chunk := h.data.chunk
      dat := fun hupc hphase => (h.data.dat hupc hphase).withEnvironment cmd rx tx
      bin := fun hupc hphase => (h.data.bin hupc hphase).withEnvironment cmd rx tx }
  crc := ⟨h.crc.dat, h.crc.datDone, h.crc.chunkStart, h.crc.chunk, h.crc.chunkDone⟩

theorem SessionInv.hostStart {s : State} (h : SessionInv s) (i f : Bytes) :
    SessionInv (hostStart i f s) := by
  rcases hostStart_cases i f s with ⟨-, -, e⟩ | ⟨-, e⟩ <;> rw [e]
  · exact h.withEnvironment _ s.rx s.tx
  · exact h

theorem SessionInv.deliver {s : State} (h : SessionInv s) (e : RxEvent) : SessionInv (deliver e s) :=
  h.withEnvironment s.cmd (s.rx ++ [e]) s.tx

theorem SessionInv.answerTx {s : State} (h : SessionInv s) (e : TxResult) : SessionInv (answerTx e s) :=
  h.withEnvironment s.cmd s.rx (s.tx ++ [e])

/-- Settles O51: three of the operations write only what the invariant does not read; a new Session starts over
under the same parameters. -/
theorem environmentKeepsInvariant : Obligations.EnvironmentKeepsInvariant := fun _ h =>
  ⟨h.hostStart, h.deliver, h.answerTx, sessionInv_newSession h.data.align⟩

/-! ## What a step of a running engine does, by phase (R6) -/

theorem step_of_running {s : State} (h : halted s = false) : step s = runPhase s := by
  simp [step, h]

theorem runPhase_request {s : State} {r : Request}
    (h : s.phase = .send r ∨ s.phase = .write r ∨ s.phase = .flush r) :
    runPhase s = exec r.toInstr s := by
  rcases h with h | h | h <;> simp only [runPhase, h]

theorem runPhase_recv {s : State} (h : s.phase = .recv) : runPhase s = recvStep s := by
  simp only [runPhase, h]

theorem runPhase_parse {s : State} (h : s.phase = .parse) : runPhase s = parseStep s := by
  simp only [runPhase, h]

/-- A byte that completes a symbol is consumed and the symbol executed (R135). -/
theorem recvStep_symbol {s : State} {b : Byte} {rest : List RxEvent} {i : Instr}
    (hrx : s.rx = .byte b :: rest) (h : symbolOfByte s.cfg s.rxEsc b = some i) :
    recvStep s = exec i (popRx rest s) := by
  simp only [recvStep, hrx, h]

/-- The `ESC` that opens a pair is consumed and sets `rx_esc` (R138). -/
theorem recvStep_prefix {s : State} {b : Byte} {rest : List RxEvent}
    (hrx : s.rx = .byte b :: rest) (h : symbolOfByte s.cfg s.rxEsc b = none) :
    recvStep s = .next (setEsc (popRx rest s)) := by
  simp only [recvStep, hrx, h]

theorem parseStep_ok {s : State} {i : Instr}
    (h : decodeResponse s.cfg s.outOp s.outShape s.rxBuf = .ok i) : parseStep s = exec i s := by
  simp only [parseStep, h]

end Sys2Proof.Machine

namespace Sys2Proof

/-! ## Decoding a whole item against the engine's byte-serial decoder (R91, R92, R171) -/

/-- Inside a pair every byte completes a symbol (R140). -/
theorem symbolOfByte_true_ne_none (c : Config) (b : Byte) : symbolOfByte c true b ≠ none := by
  unfold symbolOfByte; split_ifs <;> simp_all

/-- Outside a pair only an `ESC` that is not the terminator completes nothing (R138). -/
theorem symbolOfByte_false_eq_none_iff (c : Config) (b : Byte) :
    symbolOfByte c false b = none ↔ b = c.escByte ∧ b ≠ c.endByte := by
  unfold symbolOfByte; split_ifs <;> simp_all

/-- A symbol of one byte is the one that byte completes outside a pair. -/
theorem symbolOfByte_of_decode_one {c : Config} {b : Byte} {i : Instr}
    (h : decode c .symbol [b] = .ok i) : symbolOfByte c false b = some i := by
  cases hb : symbolOfByte c false b with
  | none => simp [decode, decodeSymbol, hb] at h
  | some j => simpa [decode, decodeSymbol, hb] using h

/-- A symbol of two bytes is the one its second byte completes inside a pair. -/
theorem symbolOfByte_of_decode_pair {c : Config} {a b : Byte} {i : Instr}
    (h : decode c .symbol [a, b] = .ok i) : symbolOfByte c true b = some i := by
  cases ha : symbolOfByte c false a with
  | some j => simp [decode, decodeSymbol, ha] at h
  | none =>
    cases hb : symbolOfByte c true b with
    | none => exact absurd hb (symbolOfByte_true_ne_none c b)
    | some j => simpa [decode, decodeSymbol, ha, hb] using h

theorem decodeResponse_of_decode_envelope {c : Config} {op : Byte} {shape : Shape} {p : Bytes} {i : Instr}
    (h : decode c (.envelope op shape) p = .ok i) : decodeResponse c op shape p = .ok i := by
  cases hd : decodeResponse c op shape p with
  | error k => simp [decode, hd] at h
  | ok j => simpa [decode, hd] using h

end Sys2Proof

namespace Sys2Proof.Machine

/-- Settles O26: by the phase the engine is in, with the symbol or the response row the decoder names. -/
theorem stepRunsDecodedInstruction : Obligations.StepRunsDecodedInstruction := by
  intro s hrun
  rw [step_of_running hrun]
  refine ⟨fun r hphase => runPhase_request hphase, ?literal, ?pair, ?escape, ?payload⟩
  case literal =>
    intro b rest i hphase hrx hesc hdec
    rw [runPhase_recv hphase]
    exact recvStep_symbol hrx (hesc ▸ symbolOfByte_of_decode_one hdec)
  case pair =>
    intro b rest i hphase hrx hesc hdec
    rw [runPhase_recv hphase]
    exact recvStep_symbol hrx (hesc ▸ symbolOfByte_of_decode_pair hdec)
  case escape =>
    intro rest hphase hrx hesc hne
    rw [runPhase_recv hphase]
    exact recvStep_prefix hrx (hesc ▸ (symbolOfByte_false_eq_none_iff s.cfg _).mpr ⟨rfl, hne⟩)
  case payload =>
    intro i hphase hdec
    rw [runPhase_parse hphase]
    exact parseStep_ok (decodeResponse_of_decode_envelope hdec)

end Sys2Proof.Machine
end

section
/-! PROOFS. What every step keeps: control, the exchange, the data and the CRC coverage of a session; who writes
which register; the log is never read. -/

namespace Sys2Proof.Machine

/-! ## Control: where a running session can stand (R250) -/

/-- Every step may be at its beginning. -/
theorem phaseFits_of_enter {s : State} (h : s.phase = .enter) (hmf : s.upc ≠ .mf) : phaseFits s := by
  unfold phaseFits
  split
  case h_1 => exact .inl h
  case h_2 => exact .inl h
  case h_3 => exact h
  case h_4 => exact h
  case h_5 hu => exact absurd hu hmf
  case h_6 =>
    suffices ∃ r, stepRequest s = some r by
      obtain ⟨r, hr⟩ := this
      exact ⟨r, hr, .inl h⟩
    cases hu : s.upc <;> simp_all [stepRequest]

/-- The steps without a request of their own in the table of R250. -/
theorem upc_of_stepRequest {s : State} {r : Request} (h : stepRequest s = some r) :
    s.upc ≠ .m0 ∧ s.upc ≠ .m6 ∧ s.upc ≠ .m11 ∧ s.upc ≠ .m14 ∧ s.upc ≠ .mf := by
  cases hu : s.upc <;> simp_all [stepRequest]

theorem phaseFits_of_exchange {s : State} {r : Request} (hr : stepRequest s = some r)
    (hp : exchangePhase r s.phase) : phaseFits s := by
  cases hu : s.upc <;> simp_all [phaseFits, stepRequest]

theorem phaseFits_of_stream {s : State} (hu : s.upc = .m6 ∨ s.upc = .m11) (hp : streamPhase s.phase) :
    phaseFits s := by
  rcases hu with hu | hu <;> simpa only [phaseFits, hu] using hp

/-- A running step is at its beginning, streams, or exchanges its own request. -/
theorem phaseFits_cases {s : State} (h : phaseFits s) (hmf : s.upc ≠ .mf) :
    s.phase = .enter ∨ ((s.upc = .m6 ∨ s.upc = .m11) ∧ streamPhase s.phase) ∨
      ∃ r, stepRequest s = some r ∧ exchangePhase r s.phase := by
  unfold phaseFits at h
  split at h
  case h_1 hu => exact .inr (.inl ⟨.inl hu, h⟩)
  case h_2 hu => exact .inr (.inl ⟨.inr hu, h⟩)
  case h_3 => exact .inl h
  case h_4 => exact .inl h
  case h_5 hu => exact absurd hu hmf
  case h_6 => exact .inr (.inr h)

/-- STREAM's own phases belong to M6 and M11. -/
theorem phaseFits.streaming {s : State} (h : phaseFits s) (hmf : s.upc ≠ .mf)
    (hp : s.phase = .stream ∨ ∃ d, s.phase = .sent d) : s.upc = .m6 ∨ s.upc = .m11 := by
  rcases phaseFits_cases h hmf with he | ⟨hu, -⟩ | ⟨r, -, he⟩
  · simp [he] at hp
  · exact hu
  · rcases hp with hp | ⟨d, hp⟩ <;> simp [exchangePhase, hp] at he

/-- The phases after a request's flush belong to a step that exchanges. -/
theorem phaseFits.receiving {s : State} (h : phaseFits s) (hmf : s.upc ≠ .mf)
    (hp : s.phase = .recv ∨ s.phase = .parse ∨ s.phase = .finish) : ∃ r, stepRequest s = some r := by
  rcases phaseFits_cases h hmf with he | ⟨-, hs⟩ | ⟨r, hr, -⟩
  · simp [he] at hp
  · rcases hp with hp | hp | hp <;> simp [streamPhase, hp] at hs
  · exact ⟨r, hr⟩

/-- A request being sent is the step's own, or the fragment of a step that streams. -/
theorem phaseFits.sending {s : State} {r : Request} (h : phaseFits s) (hmf : s.upc ≠ .mf)
    (hp : s.phase = .send r ∨ s.phase = .write r ∨ s.phase = .flush r) :
    stepRequest s = some r ∨ ((s.upc = .m6 ∨ s.upc = .m11) ∧ ∃ d, r = .writeChunk d) := by
  rcases phaseFits_cases h hmf with he | ⟨hu, hs⟩ | ⟨q, hq, he⟩
  · simp [he] at hp
  · refine .inr ⟨hu, ?_⟩
    rcases hp with hp | hp | hp <;> simpa [streamPhase, hp] using hs
  · have : r = q := by rcases hp with hp | hp | hp <;> simpa [exchangePhase, hp] using he
    exact .inl (this ▸ hq)

/-- No step exchanges a WriteChunk: STREAM alone sends it (R167). -/
theorem stepRequest_ne_writeChunk (s : State) (d : Bytes) : stepRequest s ≠ some (.writeChunk d) := by
  unfold stepRequest; split <;> simp

/-- A fragment is sent by a step that streams. -/
theorem phaseFits.sendingChunk {s : State} {d : Bytes} (h : phaseFits s) (hmf : s.upc ≠ .mf)
    (hp : s.phase = .send (.writeChunk d) ∨ s.phase = .write (.writeChunk d) ∨
      s.phase = .flush (.writeChunk d)) : s.upc = .m6 ∨ s.upc = .m11 :=
  (h.sending hmf hp).elim (fun hr => absurd hr (stepRequest_ne_writeChunk s d)) (·.1)

/-! ## What a step of a session with its control in order can be -/

/-- `t` is `s` but for the scratch buffers, the exchange's registers, `rsp`, the stream's queues and log, and the
phase. -/
structure SameWork (s t : State) : Prop where
  upc : t.upc = s.upc
  seq : t.seq = s.seq
  errValid : t.errValid = s.errValid
  cfg : t.cfg = s.cfg
  initMem : t.initMem = s.initMem
  fwMem : t.fwMem = s.fwMem
  initLen : t.initLen = s.initLen
  fwLen : t.fwLen = s.fwLen
  fwPlen : t.fwPlen = s.fwPlen
  fwOff : t.fwOff = s.fwOff
  chunkLen : t.chunkLen = s.chunkLen
  maxSize : t.maxSize = s.maxSize
  mtu : t.mtu = s.mtu
  strSpace : t.strSpace = s.strSpace
  strBase : t.strBase = s.strBase
  strLen : t.strLen = s.strLen
  strPtr : t.strPtr = s.strPtr
  fragMax : t.fragMax = s.fragMax
  crcAcc : t.crcAcc = s.crcAcc

/-- `rx_buf` is within its capacity (R30, R142). -/
def rxWithin (s : State) : Prop := ∀ n ∈ s.cfg.rxCap, s.rxBuf.length ≤ n

/-- The successors on success of the steps whose end writes no register but `seq` and `upc` (R250). -/
def plainSuccessor : Upc → Option (Seq × Upc)
  | .m1 => some (.connecting, .m2)
  | .m3 => some (.negotiated, .m4)
  | .m4 => some (.datSelected, .m5)
  | .m5 => some (.datCreated, .m6)
  | .m7 => some (.datCrcChecked, .m8)
  | .m8 => some (.datExecuted, .m9)
  | .m10 => some (.binCreated, .m11)
  | .m12 => some (.binCrcChecked, .m13)
  | _ => none

/-- `d` is the fragment at `str_ptr`: in hand already, or just read (R268). -/
def nextFragment (s : State) (d : Bytes) : Prop :=
  fragInHand s = some d ∨
    (s.strPtr.toNat < s.strLen.toNat ∧
      memRead s s.strSpace (s.strBase.toNat + s.strPtr.toNat) (fragLengthOf s) = some d)

/-- The steps of a session with its control in order: `StepTo` without the positions that no session reaches, the
ways of one kind taken together. -/
inductive SessionStep (s : State) : State → Prop where
  | stay : SessionStep s s
  | abort (k : ErrKind) (u : State) : u.cfg = s.cfg → u.rxBuf = s.rxBuf → SessionStep s (raise k u)
  | start (c : StartCmd) : c.initBytes.length < 2 ^ 32 → paddedLength s.cfg c.fwBytes.length < 2 ^ 32 →
      SessionStep s (goTo .connecting .m1 (latchStart c s))
  | exchange (r : Request) (t : State) : stepRequest s = some r → (s.upc = .m10 → s.phase ≠ .enter) →
      SameWork s t → (rxWithin s → rxWithin t) → exchangePhase r t.phase → SessionStep s t
  | chunk : s.upc = .m10 → s.fwOff ≠ s.fwPlen →
      SessionStep s (begin (.createObject .data (chunkLengthOf s)) (setChunkLen (chunkLengthOf s) s))
  | noChunkLeft : s.upc = .m10 → SessionStep s (goTo .done .m14 s)
  | openDat : s.upc = .m6 → 4 < s.mtu.toNat →
      SessionStep s (setPhase .stream (loadStream .initMem 0 s.initLen (crcLoad 0 (setSeq .datStreaming s))))
  | openBin : s.upc = .m11 → s.phase = .enter → 4 < s.mtu.toNat →
      SessionStep s (setPhase .stream (loadStream .fwpad s.fwOff s.chunkLen (setSeq .binStreaming s)))
  | fragment (d : Bytes) (t : State) : s.upc = .m6 ∨ s.upc = .m11 → s.phase ≠ .enter → nextFragment s d →
      SameWork s t → t.rxBuf = s.rxBuf → streamPhase t.phase → fragInHand t = some d → SessionStep s t
  | fragDone (d : Bytes) : s.upc = .m6 ∨ s.upc = .m11 → s.phase = .sent d →
      SessionStep s (setPhase .stream (advancePtr d.length (crcLoad (crc32 s.cfg d s.crcAcc) s)))
  | streamEndDat : s.upc = .m6 → s.phase = .stream → s.strLen.toNat ≤ s.strPtr.toNat →
      SessionStep s (goTo s.seq .m7 s)
  | streamEndBin : s.upc = .m11 → s.phase = .stream → s.strLen.toNat ≤ s.strPtr.toNat →
      SessionStep s (goTo s.seq .m12 s)
  | advance (q : Seq) (u : Upc) : s.phase = .finish → plainSuccessor s.upc = some (q, u) →
      SessionStep s (goTo q u s)
  | mtu : s.upc = .m2 → SessionStep s (goTo .connecting .m3 (setMtu s.rsp.mtu s))
  | binSelected : s.upc = .m9 → s.rsp.sel.maxSize ≠ 0 →
      SessionStep s (goTo .binSelected .m10 (crcLoad 0 (setFwOff 0 (setMaxSize s.rsp.sel.maxSize s))))
  | binExecuted : s.upc = .m13 →
      SessionStep s (goTo .binExecuted .m10 (setFwOff (s.fwOff + s.chunkLen) s))

/-- Encoding a request or writing it is a step of its exchange, or of its fragment's way out. -/
theorem SessionStep.ofSend {s t : State} {r : Request} (hc : phaseFits s) (hmf : s.upc ≠ .mf)
    (hp : s.phase = .send r ∨ s.phase = .write r) (ht : t.phase = .write r ∨ t.phase = .flush r)
    (hw : SameWork s t) (hrx : t.rxBuf = s.rxBuf) : SessionStep s t := by
  have hne : s.phase ≠ .enter := by rcases hp with hp | hp <;> simp [hp]
  rcases hc.sending hmf (hp.elim .inl (.inr ∘ .inl)) with hr | ⟨hu, d, rfl⟩
  · exact .exchange r t hr (fun _ => hne) hw (by simp [rxWithin, hw.cfg, hrx])
      (by rcases ht with ht | ht <;> simp [exchangePhase, ht])
  · exact .fragment d t hu hne (.inl (by rcases hp with hp | hp <;> simp [fragInHand, hp])) hw hrx
      (by rcases ht with ht | ht <;> simp [streamPhase, ht])
      (by rcases ht with ht | ht <;> simp [fragInHand, ht])

/-- An event of RECV or the parse of the payload is a step of the exchange, unless it aborts. -/
theorem SessionStep.ofReceive {s t : State} (hc : phaseFits s) (hmf : s.upc ≠ .mf)
    (hp : s.phase = .recv ∨ s.phase = .parse) (ht : t.phase = .recv ∨ t.phase = .parse ∨ t.phase = .finish)
    (hw : SameWork s t) (hrx : rxWithin s → rxWithin t) : SessionStep s t := by
  obtain ⟨r, hr⟩ := hc.receiving hmf (hp.imp_right .inl)
  exact .exchange r t hr (fun _ => by rcases hp with hp | hp <;> simp [hp]) hw hrx
    (by rcases ht with ht | ht | ht <;> simp [exchangePhase, ht])

/-- A byte with room for it keeps `rx_buf` within its capacity (R142). -/
theorem rxWithin_of_push {s t : State} {b : Byte} (hf : rxFull s = false) (hcfg : t.cfg = s.cfg)
    (hrx : t.rxBuf = s.rxBuf ++ [b]) : rxWithin t := fun n hn => by
  simpa [hrx] using (rxFull_eq_false s).mp hf n (hcfg ▸ hn)

/-- Every step of a running session with its control in order is one of those listed. -/
theorem StepTo.session {s t : State} (hc : phaseFits s) (hmf : s.upc ≠ .mf) (h : StepTo s t) :
    SessionStep s t := by
  obtain ⟨hnotHw, hnotEncoded⟩ := phaseFits_not_hardwareVersion hc hmf
  cases h
  case blocked => exact .stay
  case start c _ _ _ hinit hfw => exact .start c hinit hfw
  case exchange r hp hr h10 =>
    exact .exchange r _ hr (absurd · h10) (by constructor <;> rfl) id (by simp [exchangePhase])
  case noChunkLeft hu _ => exact .noChunkLeft hu
  case chunk hu hleft => exact .chunk hu hleft
  case openDat hu hm => exact .openDat hu hm
  case openBin hp hu hm => exact .openBin hu hp hm
  case encodeOnly hp => exact absurd hp hnotHw
  case encodedDone m hp => exact absurd hp (hnotEncoded m)
  case encode r hp _ => exact .ofSend hc hmf (.inl hp) (.inl rfl) (by constructor <;> rfl) rfl
  case written r rest hp _ _ => exact .ofSend hc hmf (.inr hp) (.inr rfl) (by constructor <;> rfl) rfl
  case flushed r rest hp _ hchunk _ =>
    have hr := (hc.sending hmf (.inr (.inr hp))).resolve_right fun ⟨_, d, hd⟩ => hchunk d hd
    exact .exchange r _ hr (fun _ => by simp [hp]) (by constructor <;> rfl) (fun _ _ _ => by simp)
      (by simp [exchangePhase])
  case chunkFlushed d rest hp _ =>
    exact .fragment d _ (hc.sendingChunk hmf (.inr (.inr hp))) (by simp [hp])
      (.inl (by simp [fragInHand, hp])) (by constructor <;> rfl) rfl (by simp [streamPhase]) rfl
  case fragDone d hp => exact .fragDone d (hc.streaming hmf (.inr ⟨d, hp⟩)) hp
  case fragment d hp hlt hd =>
    exact .fragment d _ (hc.streaming hmf (.inl hp)) (by simp [hp]) (.inr ⟨hlt, hd⟩)
      (by constructor <;> rfl) rfl (by simp [streamPhase]) rfl
  case streamEndDat hp hle hu => exact .streamEndDat hu hp hle
  case streamEndBin hp hle hu => exact .streamEndBin hu hp hle
  case streamEndOther hp h6 h11 => exact absurd (hc.streaming hmf (.inl hp)) (by simp [h6, h11])
  case recvEsc rest hp _ _ _ => exact .ofReceive hc hmf (.inl hp) (.inl hp) (by constructor <;> rfl) id
  case recvEnd rest hp _ _ => exact .ofReceive hc hmf (.inl hp) (.inr (.inl rfl)) (by constructor <;> rfl) id
  case recvLiteral b rest hp _ _ _ _ hf =>
    exact .ofReceive hc hmf (.inl hp) (.inl hp) (by constructor <;> rfl) fun _ => rxWithin_of_push hf rfl rfl
  case recvEscEnd rest hp _ _ hf =>
    exact .ofReceive hc hmf (.inl hp) (.inl hp) (by constructor <;> rfl) fun _ => rxWithin_of_push hf rfl rfl
  case recvEscEsc rest hp _ _ _ hf =>
    exact .ofReceive hc hmf (.inl hp) (.inl hp) (by constructor <;> rfl) fun _ => rxWithin_of_push hf rfl rfl
  case parseOk v hp => exact .ofReceive hc hmf (.inr hp) (.inr (.inr rfl)) (by constructor <;> rfl) id
  case versionOk hp hu _ => exact .advance _ _ hp (by rw [hu]; rfl)
  case mtu _ hu => exact .mtu hu
  case negotiated hp hu => exact .advance _ _ hp (by rw [hu]; rfl)
  case datSelected hp hu => exact .advance _ _ hp (by rw [hu]; rfl)
  case datCreated hp hu => exact .advance _ _ hp (by rw [hu]; rfl)
  case datCrcOk hp hu _ => exact .advance _ _ hp (by rw [hu]; rfl)
  case datExecuted hp hu => exact .advance _ _ hp (by rw [hu]; rfl)
  case binSelected _ hu hmax => exact .binSelected hu hmax
  case binCreated hp hu => exact .advance _ _ hp (by rw [hu]; rfl)
  case binCrcOk hp hu _ => exact .advance _ _ hp (by rw [hu]; rfl)
  case binExecuted _ hu => exact .binExecuted hu
  case finishOther hp hnone =>
    obtain ⟨r, hr⟩ := hc.receiving hmf (.inr (.inr hp))
    simp [hnone] at hr
  all_goals exact .abort _ _ rfl rfl

/-- A step of a session with its control in order. -/
theorem ControlInv.step_cases {s t : State} (hc : ControlInv s) (h : step s = .next t) : SessionStep s t := by
  rcases step_next h with ⟨-, rfl⟩ | ⟨hrun, hst⟩
  · exact .stay
  · exact hst.session hc.phase ((halted_eq_false s).mp hrun).2

/-! ## Control is kept (R250, R275, R316) -/

theorem ControlInv.raise (k : ErrKind) (s : State) : ControlInv (raise k s) where
  seq := by simp [seqFits]
  phase := by simp [phaseFits]
  err := by simp

theorem ControlInv.errValid_eq_false {s : State} (hc : ControlInv s) (hmf : s.upc ≠ .mf) :
    s.errValid = false :=
  Bool.eq_false_of_not_eq_true fun h => hmf (hc.err.mp h)

/-- The beginning of a microprogram step is in order if `seq` is. -/
theorem ControlInv.goTo {q : Seq} {u : Upc} {s : State} (hseq : seqFits (goTo q u s))
    (herr : s.errValid = false) (hmf : u ≠ .mf) : ControlInv (goTo q u s) where
  seq := hseq
  phase := phaseFits_of_enter rfl hmf
  err := by simp [herr, hmf]

/-- Outside M6 and M11 `seq` has one value for the whole microprogram step. -/
theorem seqFits_congr_exchange {s t : State} {r : Request} (hr : stepRequest s = some r) (hupc : t.upc = s.upc)
    (hseq : t.seq = s.seq) (h : seqFits s) : seqFits t := by
  obtain ⟨-, h6, h11, -, -⟩ := upc_of_stepRequest hr
  unfold seqFits at h ⊢
  rw [hupc, hseq]
  split at h <;> simp_all

/-- At M6 and M11 `seq` has one value from the first register transfer on. -/
theorem seqFits_congr_stream {s t : State} (hu : s.upc = .m6 ∨ s.upc = .m11) (hs : s.phase ≠ .enter)
    (ht : t.phase ≠ .enter) (hupc : t.upc = s.upc) (hseq : t.seq = s.seq) (h : seqFits s) : seqFits t := by
  unfold seqFits at h ⊢
  rw [hupc, hseq]
  rcases hu with hu | hu <;> simpa [hu, hs, ht] using h

/-- A step inside an exchange keeps control in order. -/
theorem ControlInv.toExchange {s t : State} {r q : Request} (hc : ControlInv s) (hr : stepRequest s = some r)
    (hq : stepRequest t = some q) (hp : exchangePhase q t.phase) (hupc : t.upc = s.upc) (hseq : t.seq = s.seq)
    (herr : t.errValid = s.errValid) : ControlInv t where
  seq := seqFits_congr_exchange hr hupc hseq hc.seq
  phase := phaseFits_of_exchange hq hp
  err := by rw [hupc, herr]; exact hc.err

/-- A step inside a stream keeps control in order. -/
theorem ControlInv.toStream {s t : State} (hc : ControlInv s) (hu : s.upc = .m6 ∨ s.upc = .m11)
    (hs : s.phase ≠ .enter) (hp : streamPhase t.phase) (ht : t.phase ≠ .enter) (hupc : t.upc = s.upc)
    (hseq : t.seq = s.seq) (herr : t.errValid = s.errValid) : ControlInv t where
  seq := seqFits_congr_stream hu hs ht hupc hseq hc.seq
  phase := phaseFits_of_stream (hupc ▸ hu) hp
  err := by rw [hupc, herr]; exact hc.err

theorem SameWork.stepRequest {s t : State} (h : SameWork s t) : stepRequest t = stepRequest s := by
  simp only [Machine.stepRequest, chunkLengthOf, h.upc, h.cfg, h.initLen, h.maxSize, h.fwPlen, h.fwOff]

theorem phase_ne_enter_of_fragInHand {s : State} {d : Bytes} (h : fragInHand s = some d) : s.phase ≠ .enter := by
  rintro hp
  simp [fragInHand, hp] at h

/-- `seq` after a plain end is the one R250 gives the step that follows. -/
theorem seqFits_plainSuccessor {v u : Upc} {q : Seq} (s : State) (h : plainSuccessor v = some (q, u)) :
    seqFits (Machine.goTo q u s) ∧ u ≠ .mf := by
  cases v <;> simp only [plainSuccessor, Option.some.injEq, Prod.mk.injEq, reduceCtorEq] at h <;>
    obtain ⟨rfl, rfl⟩ := h <;> simp [seqFits]

/-- Settles O47: by the kind of the step; what it writes of `seq`, `upc` and the phase fits the microprogram step it
leads to. -/
theorem stepKeepsControl : Obligations.StepKeepsControl := by
  intro s t hc hstep
  by_cases hmf : s.upc = .mf
  · have : step s = .next s := by simp [step, halted, hmf]
    cases this.symm.trans hstep
    exact hc
  have herr := hc.errValid_eq_false hmf
  cases hc.step_cases hstep
  case stay => exact hc
  case abort k u _ _ => exact .raise k u
  case start => exact .goTo rfl herr (by simp)
  case exchange r hr _ hw _ hp => exact hc.toExchange hr (hw.stepRequest ▸ hr) hp hw.upc hw.seq hw.errValid
  case chunk hu _ =>
    exact hc.toExchange (r := .createObject .data (chunkLengthOf s))
      (q := .createObject .data (chunkLengthOf s)) (by simp [stepRequest, hu])
      (by simp [stepRequest, hu, chunkLengthOf]) (by simp [exchangePhase]) rfl rfl rfl
  case noChunkLeft => exact .goTo rfl herr (by simp)
  case openDat hu _ =>
    exact ⟨by simp [seqFits, hu], phaseFits_of_stream (.inl hu) (by simp [streamPhase]), by simp [herr, hu]⟩
  case openBin hu _ _ =>
    exact ⟨by simp [seqFits, hu], phaseFits_of_stream (.inr hu) (by simp [streamPhase]), by simp [herr, hu]⟩
  case fragment d hu hs _ hw _ hp hd =>
    exact hc.toStream hu hs hp (phase_ne_enter_of_fragInHand hd) hw.upc hw.seq hw.errValid
  case fragDone d hu hs =>
    exact hc.toStream hu (by simp [hs]) (by simp [streamPhase]) (by simp) rfl rfl rfl
  case streamEndDat hu hs _ =>
    have hseq : s.seq = .datStreaming := by simpa [seqFits, hu, hs] using hc.seq
    exact .goTo hseq herr (by simp)
  case streamEndBin hu hs _ =>
    have hseq : s.seq = .binStreaming := by simpa [seqFits, hu, hs] using hc.seq
    exact .goTo hseq herr (by simp)
  case advance q u _ hnext =>
    obtain ⟨hseq, hu⟩ := seqFits_plainSuccessor s hnext
    exact .goTo hseq herr hu
  case mtu => exact .goTo rfl herr (by simp)
  case binSelected => exact .goTo (.inl rfl) herr (by simp)
  case binExecuted => exact .goTo (.inr rfl) herr (by simp)

/-! ## One exchange outstanding is kept (R32, R214, R360) -/

/-- Outside RECV no answer is awaited. -/
theorem ExchangeInv.ofQuiet {s : State} (hawait : s.awaiting = false)
    (hp : ¬ (s.phase = .recv ∨ s.phase = .parse)) : ExchangeInv s where
  awaiting _ := by simp [hawait, hp]
  outstanding _ h := absurd h hp

theorem ExchangeInv.raise (k : ErrKind) (s : State) : ExchangeInv (raise k s) where
  awaiting h := absurd rfl h
  outstanding h := absurd rfl h

/-- A step that begins and ends outside RECV and leaves `awaiting` alone. -/
theorem ExchangeInv.quiet {s t : State} (he : ExchangeInv s) (hmf : s.upc ≠ .mf)
    (hs : ¬ (s.phase = .recv ∨ s.phase = .parse)) (ht : ¬ (t.phase = .recv ∨ t.phase = .parse))
    (hawait : t.awaiting = s.awaiting) : ExchangeInv t :=
  .ofQuiet (hawait.trans (Bool.eq_false_of_not_eq_true fun h => hs ((he.awaiting hmf).mp h))) ht

/-- An event of RECV: the same answer is awaited. -/
theorem ExchangeInv.receive {s t : State} (he : ExchangeInv s) (hmf : s.upc ≠ .mf) (hs : s.phase = .recv)
    (ht : t.phase = .recv ∨ t.phase = .parse) (hawait : t.awaiting = s.awaiting)
    (hop : t.outOp = s.outOp) (hshape : t.outShape = s.outShape) (hcfg : t.cfg = s.cfg)
    (hreq : stepRequest t = stepRequest s) : ExchangeInv t where
  awaiting _ := by simp [hawait, (he.awaiting hmf).mpr (.inl hs), ht]
  outstanding _ _ := by simpa only [hreq, hop, hshape, hcfg] using he.outstanding hmf (.inl hs)

/-- Settles O48: the flush of an exchange's request opens RECV, the events of RECV stay inside it, its response
closes it, and every other step is outside. -/
theorem stepKeepsExchange : Obligations.StepKeepsExchange := by
  intro s t hc he hstep
  rcases step_next hstep with ⟨-, rfl⟩ | ⟨hrun, hst⟩
  · exact he
  have hmf := ((halted_eq_false s).mp hrun).2
  cases hst
  case blocked => exact he
  case flushed r rest hp _ hchunk _ =>
    have hr := (hc.phase.sending hmf (.inr (.inr hp))).resolve_right fun ⟨_, d, hd⟩ => hchunk d hd
    exact ⟨by simp, fun _ _ => ⟨r, hr, rfl, rfl⟩⟩
  case recvEsc rest hp _ _ _ => exact he.receive hmf hp (.inl hp) rfl rfl rfl rfl rfl
  case recvEnd rest hp _ _ => exact he.receive hmf hp (.inr rfl) rfl rfl rfl rfl rfl
  case recvLiteral b rest hp _ _ _ _ _ => exact he.receive hmf hp (.inl hp) rfl rfl rfl rfl rfl
  case recvEscEnd rest hp _ _ _ => exact he.receive hmf hp (.inl hp) rfl rfl rfl rfl rfl
  case recvEscEsc rest hp _ _ _ _ => exact he.receive hmf hp (.inl hp) rfl rfl rfl rfl rfl
  case parseOk v _ => exact .ofQuiet rfl (by simp)
  case encodeOnly hp => exact absurd hp (phaseFits_not_hardwareVersion hc.phase hmf).1
  case startTooLong | openDatSmallMtu | openBinSmallMtu | writeFailed | flushFailed | recvEof | recvTimeout |
      recvIoErr | recvOverflow | recvBadEscape | parseError | parseRejected | versionMismatch | maxSizeZero |
      crcMismatch =>
    exact .raise _ _
  all_goals exact he.quiet hmf (by simp [*]) (by simp) rfl

/-! ## Data is kept (R25, R26, R27, R30, R63) -/

theorem DataInv.raise {s u : State} (hd : DataInv s) (k : ErrKind) (hcfg : u.cfg = s.cfg)
    (hrx : u.rxBuf = s.rxBuf) : DataInv (raise k u) where
  align := by simpa [hcfg] using hd.align
  rxCap := by simpa [hcfg, hrx] using hd.rxCap
  memory _ h := absurd rfl h
  firmware := by simp [inFirmware]
  chunk := by simp [inChunk]
  dat := by simp
  bin := by simp

/-- The length registers name the lengths of the buffers (R25, R60, R68). -/
def lengthsFit (s : State) : Prop :=
  s.initMem.length = s.initLen.toNat ∧ s.fwMem.length = s.fwLen.toNat ∧
    s.fwPlen.toNat = paddedLength s.cfg s.fwMem.length

/-- At the beginning of a microprogram step the streaming registers are not looked at. -/
theorem DataInv.goTo {s : State} {q : Seq} {u : Upc} (halign : 0 < s.cfg.padAlign) (hrx : rxWithin s)
    (hmem : lengthsFit s)
    (hfw : inFirmware (goTo q u s) → s.maxSize ≠ 0 ∧ s.fwOff.toNat ≤ s.fwPlen.toNat)
    (hchunk : inChunk (goTo q u s) → s.chunkLen = chunkLengthOf s ∧ s.fwOff.toNat < s.fwPlen.toNat) :
    DataInv (goTo q u s) where
  align := halign
  rxCap := hrx
  memory _ _ := hmem
  firmware := hfw
  chunk := hchunk
  dat _ h := absurd rfl h
  bin _ h := absurd rfl h

/-- The padded length is not below the length (R68). -/
theorem le_paddedLength {c : Config} (h : 0 < c.padAlign) (n : Nat) : n ≤ paddedLength c n := by
  rw [paddedLength, if_neg h.ne']
  have hdiv := Nat.lt_div_mul_add (a := n + c.padAlign - 1) h
  omega

/-- The lengths that R251 accepts are latched as they are. -/
theorem lengthsFit_latchStart {s : State} {c : StartCmd} (h : 0 < s.cfg.padAlign)
    (hinit : c.initBytes.length < 2 ^ 32) (hfw : paddedLength s.cfg c.fwBytes.length < 2 ^ 32) :
    lengthsFit (latchStart c s) :=
  ⟨(latchLength_toNat hinit).symm,
    (latchLength_toNat (lt_of_le_of_lt (le_paddedLength h c.fwBytes.length) hfw)).symm, latchLength_toNat hfw⟩

theorem SameWork.chunkLengthOf {s t : State} (h : SameWork s t) : chunkLengthOf t = chunkLengthOf s := by
  simp only [Machine.chunkLengthOf, h.maxSize, h.fwPlen, h.fwOff]

theorem SameWork.fragLengthOf {s t : State} (h : SameWork s t) : fragLengthOf t = fragLengthOf s := by
  simp only [Machine.fragLengthOf, h.fragMax, h.strLen, h.strPtr]

theorem SameWork.memRead {s t : State} (h : SameWork s t) (space : Space) (a n : Nat) :
    memRead t space a n = memRead s space a n :=
  memRead_congr h.initMem h.initLen h.fwMem h.fwLen h.fwPlen h.cfg space a n

/-- The fragment at `str_ptr` lies inside its stream and is what `MemRead` answers there. -/
theorem StreamInv.nextFragment {space : Space} {base len : U32} {s : State} {d : Bytes}
    (h : StreamInv space base len s) (hd : nextFragment s d) :
    s.strPtr.toNat < s.strLen.toNat ∧
      memRead s space (s.strBase.toNat + s.strPtr.toNat) (fragLengthOf s) = some d :=
  hd.elim (h.frag d) (h.spaceEq ▸ ·)

/-- The streaming registers of a stream whose fragment in hand, if there is one, is the next. -/
theorem StreamInv.carry {space : Space} {base len base' len' : U32} {s t : State} {d : Bytes}
    (h : StreamInv space base len s) (hd : Machine.nextFragment s d) (hw : SameWork s t)
    (ht : fragInHand t = some d) (hbase : base' = base) (hlen : len' = len) : StreamInv space base' len' t where
  spaceEq := hw.strSpace.trans h.spaceEq
  baseEq := by rw [hw.strBase, h.baseEq, hbase]
  lenEq := by rw [hw.strLen, h.lenEq, hlen]
  fragMax := by rw [hw.fragMax, h.fragMax, hw.mtu]
  progress := hw.fragMax ▸ h.progress
  ptr := by rw [hw.strPtr, hw.strLen]; exact h.ptr
  frag e he := by
    obtain rfl : d = e := by simpa [ht] using he
    rw [hw.memRead, hw.fragLengthOf, hw.strBase, hw.strPtr, hw.strLen]
    exact h.nextFragment hd

/-- A stream begins at its base with nothing in hand (R268). -/
theorem StreamInv.load {s : State} (space : Space) (base len : U32) (hm : 4 < s.mtu.toNat) :
    StreamInv space base len (setPhase .stream (loadStream space base len s)) where
  spaceEq := rfl
  baseEq := rfl
  lenEq := rfl
  fragMax := rfl
  progress := by have := fragMaxOf_lt_one s.mtu; simp; omega
  ptr := by simp
  frag := by simp [fragInHand]

/-- The pointer after a fragment: it passes exactly the fragment's bytes and stays inside the stream. -/
theorem StreamInv.advancedPtr {space : Space} {base len : U32} {s : State} {d : Bytes}
    (h : StreamInv space base len s) (hd : fragInHand s = some d) :
    (s.strPtr + BitVec.ofNat 32 d.length).toNat = s.strPtr.toNat + d.length ∧
      s.strPtr.toNat + d.length ≤ s.strLen.toNat := by
  obtain ⟨-, hread⟩ := h.frag d hd
  obtain ⟨-, -, hlen⟩ := memRead_some hread
  have hle : s.strPtr.toNat + d.length ≤ s.strLen.toNat := by
    have := h.ptr
    unfold Machine.fragLengthOf at hlen
    omega
  refine ⟨?_, hle⟩
  have := s.strLen.isLt
  rw [BitVec.toNat_add, BitVec.toNat_ofNat]
  omega

theorem StreamInv.fragDone {space : Space} {base len : U32} {s : State} {d : Bytes} {v : U32}
    (h : StreamInv space base len s) (hd : fragInHand s = some d) :
    StreamInv space base len (setPhase .stream (advancePtr d.length (crcLoad v s))) where
  spaceEq := h.spaceEq
  baseEq := h.baseEq
  lenEq := h.lenEq
  fragMax := h.fragMax
  progress := h.progress
  ptr := by
    obtain ⟨hptr, hle⟩ := h.advancedPtr hd
    simpa [-BitVec.toNat_add, hptr] using hle
  frag := by simp [fragInHand]

theorem SameWork.inChunk {s t : State} (h : SameWork s t) (h10 : s.upc = .m10 → s.phase ≠ .enter)
    (ht : inChunk t) : inChunk s := by
  unfold Machine.inChunk at ht ⊢
  rw [h.upc] at ht
  exact ht.imp_left fun hm => ⟨hm.1, h10 hm.1⟩

/-- The clauses of the data invariant on lengths, image and chunk for a step that does the same work. -/
theorem DataInv.sameWork {s t : State} (hd : DataInv s) (hw : SameWork s t) (hrx : rxWithin t)
    (h10 : s.upc = .m10 → s.phase ≠ .enter)
    (hdat : t.upc = .m6 → t.phase ≠ .enter → StreamInv .initMem 0 t.initLen t)
    (hbin : t.upc = .m11 → t.phase ≠ .enter → StreamInv .fwpad t.fwOff t.chunkLen t) : DataInv t where
  align := hw.cfg ▸ hd.align
  rxCap := hrx
  memory := by simpa only [hw.upc, hw.initMem, hw.initLen, hw.fwMem, hw.fwLen, hw.fwPlen, hw.cfg] using hd.memory
  firmware := by simpa only [inFirmware, hw.upc, hw.maxSize, hw.fwOff, hw.fwPlen] using hd.firmware
  chunk hin := by
    simpa only [hw.chunkLen, hw.chunkLengthOf, hw.fwOff, hw.fwPlen] using hd.chunk (hw.inChunk h10 hin)
  dat := hdat
  bin := hbin

/-- The end of a chunk's Execute: the offset passes the chunk and stays inside the image (R265). -/
theorem fwOff_add_chunkLen {s : State} (hlen : s.chunkLen = chunkLengthOf s)
    (hoff : s.fwOff.toNat < s.fwPlen.toNat) :
    (s.fwOff + s.chunkLen).toNat = s.fwOff.toNat + s.chunkLen.toNat ∧
      s.fwOff.toNat + s.chunkLen.toNat ≤ s.fwPlen.toNat := by
  have hchunk := chunkLengthOf_toNat hoff.le
  rw [← hlen] at hchunk
  have := s.fwPlen.isLt
  rw [BitVec.toNat_add]
  omega

/-- The two plain ends inside the firmware transfer; every other one leads to a step outside it. -/
theorem plainSuccessor_cases {v u : Upc} {q : Seq} (h : plainSuccessor v = some (q, u)) :
    (v = .m10 ∧ u = .m11) ∨ (v = .m12 ∧ u = .m13) ∨ (u ≠ .m7 ∧ ∀ s, ¬ inFirmware (goTo q u s)) := by
  cases v <;> simp only [plainSuccessor, Option.some.injEq, Prod.mk.injEq, reduceCtorEq] at h <;>
    obtain ⟨rfl, rfl⟩ := h <;> simp [inFirmware]

theorem inFirmware_of_inChunk {s : State} (h : inChunk s) : inFirmware s := h.imp_left And.left

/-- A plain end is one of a step that runs after `Start` has been taken. -/
theorem upc_of_plainSuccessor {v : Upc} {p : Seq × Upc} (h : plainSuccessor v = some p) :
    v ≠ .m0 ∧ v ≠ .mf := by
  cases v <;> simp_all [plainSuccessor]

/-- Settles O49: a step at the same work leaves every clause as it is; the others re-establish the clause whose
registers they write (the latch, the chunk length, the opened stream, the advanced pointer and offset). -/
theorem stepKeepsData : Obligations.StepKeepsData := by
  intro s t hc hd hstep
  cases hc.step_cases hstep
  case stay => exact hd
  case abort k u hcfg hrx => exact hd.raise k hcfg hrx
  case start c hinit hfw =>
    exact .goTo hd.align hd.rxCap (lengthsFit_latchStart hd.align hinit hfw) (by simp [inFirmware])
      (by simp [inChunk])
  case exchange r hr h10 hw hrx hp =>
    obtain ⟨-, h6, h11, -, -⟩ := upc_of_stepRequest hr
    exact hd.sameWork hw (hrx hd.rxCap) h10 (fun h => absurd (hw.upc ▸ h) h6)
      (fun h => absurd (hw.upc ▸ h) h11)
  case chunk hu hleft =>
    obtain ⟨hmax, hoff⟩ := hd.firmware (.inl hu)
    have hlt : s.fwOff.toNat < s.fwPlen.toNat := lt_of_le_of_ne hoff (hleft ∘ BitVec.eq_of_toNat_eq)
    exact
      { align := hd.align
        rxCap := hd.rxCap
        memory := hd.memory
        firmware := fun _ => ⟨hmax, hoff⟩
        chunk := fun _ => ⟨rfl, hlt⟩
        dat := by simp [hu]
        bin := by simp [hu] }
  case noChunkLeft hu =>
    exact .goTo hd.align hd.rxCap (hd.memory (by simp [hu]) (by simp [hu])) (by simp [inFirmware])
      (by simp [inChunk])
  case openDat hu hm =>
    exact
      { align := hd.align
        rxCap := hd.rxCap
        memory := hd.memory
        firmware := hd.firmware
        chunk := by simp [inChunk, hu]
        dat := fun _ _ => .load (s := crcLoad 0 (setSeq .datStreaming s)) .initMem 0 s.initLen hm
        bin := by simp [hu] }
  case openBin hu _ hm =>
    exact
      { align := hd.align
        rxCap := hd.rxCap
        memory := hd.memory
        firmware := hd.firmware
        chunk := fun _ => hd.chunk (.inr (.inl hu))
        dat := by simp [hu]
        bin := fun _ _ => .load (s := setSeq .binStreaming s) .fwpad s.fwOff s.chunkLen hm }
  case fragment d hu hs hnext hw hrx hp ht =>
    refine hd.sameWork hw (by rw [rxWithin, hw.cfg, hrx]; exact hd.rxCap) (fun h => ?_) (fun h6 _ => ?_)
      (fun h11 _ => ?_)
    · simp [h] at hu
    · exact (hd.dat (hw.upc ▸ h6) hs).carry hnext hw ht rfl hw.initLen
    · exact (hd.bin (hw.upc ▸ h11) hs).carry hnext hw ht hw.fwOff hw.chunkLen
  case fragDone d hu hs =>
    have hfrag : fragInHand s = some d := by simp [fragInHand, hs]
    have hne : s.phase ≠ .enter := by simp [hs]
    exact
      { align := hd.align
        rxCap := hd.rxCap
        memory := hd.memory
        firmware := hd.firmware
        chunk := fun h => hd.chunk (h.imp_left fun hm => ⟨hm.1, hne⟩)
        dat := fun h6 _ => (hd.dat h6 hne).fragDone hfrag
        bin := fun h11 _ => (hd.bin h11 hne).fragDone hfrag }
  case streamEndDat hu _ _ =>
    exact .goTo hd.align hd.rxCap (hd.memory (by simp [hu]) (by simp [hu])) (by simp [inFirmware])
      (by simp [inChunk])
  case streamEndBin hu _ _ =>
    exact .goTo hd.align hd.rxCap (hd.memory (by simp [hu]) (by simp [hu]))
      (fun _ => hd.firmware (.inr (.inl hu))) (fun _ => hd.chunk (.inr (.inl hu)))
  case advance q u hp hnext =>
    obtain ⟨h0, hmf⟩ := upc_of_plainSuccessor hnext
    have hlengths := hd.memory h0 hmf
    rcases plainSuccessor_cases hnext with ⟨hu, rfl⟩ | ⟨hu, rfl⟩ | ⟨-, hout⟩
    · exact .goTo hd.align hd.rxCap hlengths (fun _ => hd.firmware (.inl hu))
        (fun _ => hd.chunk (.inl ⟨hu, by simp [hp]⟩))
    · exact .goTo hd.align hd.rxCap hlengths (fun _ => hd.firmware (.inr (.inr (.inl hu))))
        (fun _ => hd.chunk (.inr (.inr (.inl hu))))
    · exact .goTo hd.align hd.rxCap hlengths (fun h => absurd h (hout s))
        (fun h => absurd (inFirmware_of_inChunk h) (hout s))
  case mtu hu =>
    exact .goTo hd.align hd.rxCap (hd.memory (by simp [hu]) (by simp [hu])) (by simp [inFirmware])
      (by simp [inChunk])
  case binSelected hu hmax =>
    exact .goTo hd.align hd.rxCap (hd.memory (by simp [hu]) (by simp [hu]))
      (fun _ => ⟨hmax, by simp⟩) (by simp [inChunk])
  case binExecuted hu =>
    obtain ⟨hlen, hoff⟩ := hd.chunk (.inr (.inr (.inr hu)))
    obtain ⟨hadd, hle⟩ := fwOff_add_chunkLen hlen hoff
    exact .goTo hd.align hd.rxCap (hd.memory (by simp [hu]) (by simp [hu]))
      (fun _ => ⟨(hd.firmware (.inr (.inr (.inr hu)))).1, hadd ▸ hle⟩) (by simp [inChunk])

/-! ## The CRC coverage is kept (R28, R236, R237) -/

theorem CrcInv.raise (k : ErrKind) (s : State) : CrcInv (raise k s) := by
  constructor <;> simp

/-- At the beginning of a step whose end reads no accumulator. -/
theorem CrcInv.goToUnread {s : State} {q : Seq} {u : Upc} (h7 : u ≠ .m7) (hfw : ¬ inFirmware (goTo q u s)) :
    CrcInv (goTo q u s) := by
  simp only [inFirmware, goTo_upc, not_or] at hfw
  constructor <;> simp [h7, hfw]

theorem SameWork.fwpad {s t : State} (h : SameWork s t) : fwpad t = fwpad s := by
  simp only [Machine.fwpad, h.fwMem, h.fwLen, h.fwPlen, h.cfg]

/-- What covers the bytes streamed so far does so while the step is at the same work. -/
theorem CrcInv.sameWork {s t : State} (hk : CrcInv s) (hw : SameWork s t)
    (hs : s.upc = .m6 ∨ s.upc = .m11 → s.phase ≠ .enter ∧ t.phase ≠ .enter) : CrcInv t where
  dat hu ht := by
    have hu' := hw.upc ▸ hu
    simpa only [hw.crcAcc, hw.cfg, hw.initMem, hw.strPtr] using hk.dat hu' (hs (.inl hu')).1
  datDone hu := by simpa only [hw.crcAcc, hw.cfg, hw.initMem] using hk.datDone (hw.upc ▸ hu)
  chunkStart hu := by
    rw [hw.upc] at hu
    have hu' := hu.resolve_right fun h => (hs (.inr h.1)).2 h.2
    simpa only [hw.crcAcc, hw.cfg, hw.fwpad, hw.fwOff] using hk.chunkStart (.inl hu')
  chunk hu ht := by
    have hu' := hw.upc ▸ hu
    simpa only [hw.crcAcc, hw.cfg, hw.fwpad, hw.fwOff, hw.strPtr] using hk.chunk hu' (hs (.inr hu')).1
  chunkDone hu := by
    simpa only [hw.crcAcc, hw.cfg, hw.fwpad, hw.fwOff, hw.chunkLen] using hk.chunkDone (hw.upc ▸ hu)

/-- The CRC of the first bytes, fed the bytes that follow them, is the CRC of both together (R236, R237). -/
theorem crc32_take_add (c : Config) (l : Bytes) (a k : Nat) (v : U32) :
    crc32 c ((l.drop a).take k) (crc32 c (l.take a) v) = crc32 c (l.take (a + k)) v := by
  rw [← crc32_append, List.take_add]

/-- The fragment in hand is the bytes of its space from `str_base + str_ptr` on, as many as it has. -/
theorem StreamInv.frag_eq {space : Space} {base len : U32} {s : State} {d : Bytes}
    (h : StreamInv space base len s) (hd : fragInHand s = some d) :
    d = ((spaceBytes s space).drop (base.toNat + s.strPtr.toNat)).take d.length := by
  obtain ⟨-, hread⟩ := h.frag d hd
  obtain ⟨-, hd, hlen⟩ := memRead_some hread
  rw [hlen, ← h.baseEq]
  exact hd

/-- A CRC that covers a stream up to `str_ptr` covers, fed the fragment in hand, the stream up to the advanced
pointer. -/
theorem StreamInv.crc_fragDone {space : Space} {base len : U32} {s : State} {d : Bytes} {v : U32}
    (h : StreamInv space base len s) (hd : fragInHand s = some d)
    (hk : v = crc32 s.cfg ((spaceBytes s space).take (base.toNat + s.strPtr.toNat)) 0) :
    crc32 s.cfg d v = crc32 s.cfg
      ((spaceBytes s space).take (base.toNat + (s.strPtr + BitVec.ofNat 32 d.length).toNat)) 0 := by
  rw [(h.advancedPtr hd).1, ← Nat.add_assoc, ← crc32_take_add, ← h.frag_eq hd, hk]

/-- Settles O50: the CRC starts at 0 over no bytes, takes each fragment at the pointer it is read from, and covers
the stream when the pointer has reached its end; the next chunk goes on from there. -/
theorem stepKeepsCrcCoverage : Obligations.StepKeepsCrcCoverage := by
  intro s t hc hd hk hstep
  cases hc.step_cases hstep
  case stay => exact hk
  case abort k u _ _ => exact .raise k u
  case start => exact .goToUnread (by simp) (by simp [inFirmware])
  case exchange r hr _ hw _ _ =>
    obtain ⟨-, h6, h11, -, -⟩ := upc_of_stepRequest hr
    exact hk.sameWork hw (by simp [h6, h11])
  case chunk hu _ =>
    exact ⟨by simp [hu], by simp [hu], fun _ => hk.chunkStart (.inl hu), by simp [hu], by simp [hu]⟩
  case noChunkLeft => exact .goToUnread (by simp) (by simp [inFirmware])
  case openDat hu _ => constructor <;> simp [hu]
  case openBin hu hs _ =>
    exact ⟨by simp [hu], by simp [hu], by simp [hu], fun _ _ => hk.chunkStart (.inr ⟨hu, hs⟩),
      by simp [hu]⟩
  case fragment d _ hs _ hw _ _ ht => exact hk.sameWork hw fun _ => ⟨hs, phase_ne_enter_of_fragInHand ht⟩
  case fragDone d hu hs =>
    have hfrag : fragInHand s = some d := by simp [fragInHand, hs]
    have hne : s.phase ≠ .enter := by simp [hs]
    rcases hu with hu | hu
    · have hmem := initView_of_length s (hd.memory (by simp [hu]) (by simp [hu])).1
      have hcrc := (hd.dat hu hne).crc_fragDone hfrag (v := s.crcAcc)
      simp only [spaceBytes, hmem, BitVec.ofNat_eq_ofNat, BitVec.toNat_zero, Nat.zero_add] at hcrc
      exact ⟨fun _ _ => hcrc (hk.dat hu hne), by simp [hu], by simp [hu], by simp [hu], by simp [hu]⟩
    · have hcrc := (hd.bin hu hne).crc_fragDone hfrag (hk.chunk hu hne)
      exact ⟨by simp [hu], by simp [hu], by simp [hu], fun _ _ => hcrc, by simp [hu]⟩
  case streamEndDat hu hs hle =>
    have hne : s.phase ≠ .enter := by simp [hs]
    have hstr := hd.dat hu hne
    have hlen : s.initMem.length ≤ s.strPtr.toNat := by
      rw [(hd.memory (by simp [hu]) (by simp [hu])).1, ← hstr.lenEq]
      exact hle
    have hall := hk.dat hu hne
    rw [List.take_of_length_le hlen] at hall
    exact ⟨by simp, fun _ => hall, by simp, by simp, by simp⟩
  case streamEndBin hu hs hle =>
    have hne : s.phase ≠ .enter := by simp [hs]
    have hstr := hd.bin hu hne
    have hptr : s.strPtr.toNat = s.chunkLen.toNat := by
      rw [← hstr.lenEq]
      exact hstr.ptr.antisymm hle
    exact ⟨by simp, by simp, by simp, by simp, fun _ => hptr ▸ hk.chunk hu hne⟩
  case advance q u _ hnext =>
    rcases plainSuccessor_cases hnext with ⟨hu, rfl⟩ | ⟨hu, rfl⟩ | ⟨h7, hout⟩
    · exact ⟨by simp, by simp, fun _ => hk.chunkStart (.inl hu), by simp, by simp⟩
    · exact ⟨by simp, by simp, by simp, by simp, fun _ => hk.chunkDone (.inl hu)⟩
    · exact .goToUnread h7 (hout s)
  case mtu => exact .goToUnread (by simp) (by simp [inFirmware])
  case binSelected => constructor <;> simp
  case binExecuted hu =>
    obtain ⟨hlen, hoff⟩ := hd.chunk (.inr (.inr (.inr hu)))
    obtain ⟨hadd, -⟩ := fwOff_add_chunkLen hlen hoff
    refine ⟨by simp, by simp, fun _ => ?_, by simp, by simp⟩
    have hdone := hk.chunkDone (.inr hu)
    rw [← hadd] at hdone
    exact hdone

/-! ## Rules over every step -/

/-- Settles O1: the next step finds no command to take (R252). -/
theorem newSessionIsIdleAtM0 : Obligations.NewSessionIsIdleAtM0 := by
  intro s
  have hrun : halted (newSession s) = false := rfl
  refine ⟨rfl, rfl, rfl, rfl, rfl, rfl, rfl, ?_⟩
  rw [step_of_running hrun]
  rfl

/-- Settles O20: each row is `respond` with the members of its shape. -/
theorem responsesWriteTheirMembers : Obligations.ResponsesWriteTheirMembers := fun _ =>
  ⟨fun _ => rfl, fun _ _ _ _ _ => rfl, fun _ _ _ => rfl, fun _ => rfl, fun _ _ => rfl, rfl, rfl, rfl, rfl⟩

/-- Settles O55: the ways of `StepTo` are an end on success, an abort, or a move inside the microprogram step. -/
theorem upcFollowsMicroprogram : Obligations.UpcFollowsMicroprogram := by
  intro s t hstep
  rcases step_next hstep with ⟨-, rfl⟩ | ⟨-, hst⟩
  · exact .inl rfl
  cases hst
  case start hu _ _ _ | noChunkLeft hu _ | streamEndDat hu | streamEndBin hu | versionOk hu _ | mtu hu |
      negotiated hu | datSelected hu | datCreated hu | datCrcOk hu _ | datExecuted hu | binSelected hu _ |
      binCreated hu | binCrcOk hu _ | binExecuted hu =>
    exact .inr (.inl (by rw [hu]; rfl))
  case startTooLong | openDatSmallMtu | openBinSmallMtu | writeFailed | flushFailed | recvEof | recvTimeout |
      recvIoErr | recvOverflow | recvBadEscape | parseError | parseRejected | versionMismatch | maxSizeZero |
      crcMismatch =>
    exact .inr (.inr ⟨rfl, rfl, rfl⟩)
  all_goals exact .inl rfl

/-- Settles O56: every way but the ends of M2 and M9 leaves both values as they are. -/
theorem negotiatedValuesHaveOneWriter : Obligations.NegotiatedValuesHaveOneWriter := by
  intro s t hstep
  rcases step_next hstep with ⟨-, rfl⟩ | ⟨-, hst⟩
  · exact ⟨absurd rfl, absurd rfl⟩
  cases hst
  case mtu hp hu => exact ⟨fun _ => ⟨hu, hp, rfl⟩, absurd rfl⟩
  case binSelected hp hu _ => exact ⟨absurd rfl, fun _ => ⟨hu, hp, rfl⟩⟩
  case maxSizeZero hp hu _ => exact ⟨absurd rfl, fun _ => ⟨hu, hp, rfl⟩⟩
  all_goals exact ⟨absurd rfl, absurd rfl⟩

/-- Settles O57: every way but the opening of M6, the end of M9 and the end of a fragment leaves `crc_acc` as it
is. -/
theorem crcAccumulatorWriters : Obligations.CrcAccumulatorWriters := by
  intro s t hstep hne
  rcases step_next hstep with ⟨-, rfl⟩ | ⟨-, hst⟩
  · exact absurd rfl hne
  cases hst
  case openDat hp hu _ => exact .inl ⟨hu, hp, rfl⟩
  case openDatSmallMtu hp hu _ => exact .inl ⟨hu, hp, rfl⟩
  case binSelected hp hu _ => exact .inr (.inl ⟨hu, hp, rfl⟩)
  case fragDone d hp => exact .inr (.inr ⟨d, hp, rfl⟩)
  all_goals exact absurd rfl hne

/-- Settles O58: `Start` alone binds buffers, and it is taken at M0 (R252). -/
theorem inputsAndParametersAreConstant : Obligations.InputsAndParametersAreConstant := by
  intro s t hstep
  rcases step_next hstep with ⟨-, rfl⟩ | ⟨-, hst⟩
  · exact ⟨rfl, rfl, fun _ => ⟨rfl, rfl⟩⟩
  cases hst
  case start hu _ _ _ => exact ⟨rfl, rfl, absurd hu⟩
  case startTooLong hu _ _ => exact ⟨rfl, rfl, absurd hu⟩
  all_goals exact ⟨rfl, rfl, fun _ => ⟨rfl, rfl⟩⟩

/-! ## The log is never read (R39) -/

/-- `s` with earlier entries in front of its log. -/
def prependLog (l : List TxMark) (s : State) : State := { s with txLog := l ++ s.txLog }

/-- `f` does not see what stands in the log: earlier entries stay in front of what it leaves there. -/
def ignoresLog (f : State → State) : Prop := ∀ l s, f (prependLog l s) = prependLog l (f s)

theorem ignoresLog_ite {p : State → Prop} [DecidablePred p] {f g : State → State}
    (hp : ∀ l s, p (prependLog l s) ↔ p s) (hf : ignoresLog f) (hg : ignoresLog g) :
    ignoresLog (fun s => if p s then f s else g s) := fun l s => by
  by_cases h : p s
  · simp only [if_pos h, if_pos ((hp l s).mpr h), hf l s]
  · simp only [if_neg h, if_neg (mt (hp l s).mp h), hg l s]

theorem logWrite_ignoresLog (n : Nat) (rest : List TxResult) : ignoresLog (logWrite n rest) := fun l s => by
  simp [logWrite, prependLog]

theorem logFlush_ignoresLog (m : TxMark) (rest : List TxResult) : ignoresLog (logFlush m rest) := fun l s => by
  simp [logFlush, prependLog]

theorem txWrite_ignoresLog (r : Request) : ignoresLog (txWrite r) := fun l s => by
  have htx : (prependLog l s).tx = s.tx := rfl
  unfold txWrite
  rw [htx]
  rcases s.tx with _ | ⟨_ | n, rest⟩
  · rfl
  · exact congrArg (setPhase (.flush r)) (logWrite_ignoresLog s.txBuf.length rest l s)
  · exact congrArg (raise (.transport .write)) (logWrite_ignoresLog n rest l s)

theorem txFlush_ignoresLog {after : State → State} (h : ignoresLog after) : ignoresLog (txFlush after) :=
  fun l s => by
    have htx : (prependLog l s).tx = s.tx := rfl
    unfold txFlush
    rw [htx]
    rcases s.tx with _ | ⟨_ | n, rest⟩
    · rfl
    · exact (congrArg after (logFlush_ignoresLog .flushed rest l s)).trans (h l _)
    · exact congrArg (raise (.transport .flush)) (logFlush_ignoresLog .flushFailed rest l s)

theorem sendStep_ignoresLog {after : State → State} (h : ignoresLog after) (r : Request) :
    ignoresLog (sendStep after r) := fun l s => by
  have hphase : (prependLog l s).phase = s.phase := rfl
  unfold sendStep
  rw [hphase]
  cases s.phase
  case write => exact txWrite_ignoresLog r l s
  case flush => exact txFlush_ignoresLog h l s
  all_goals rfl

theorem transact_ignoresLog (r : Request) : ignoresLog (transact r) :=
  sendStep_ignoresLog (fun _ _ => rfl) r

theorem sendChunk_ignoresLog (d : Bytes) : ignoresLog (sendChunk d) :=
  sendStep_ignoresLog (fun _ _ => rfl) (.writeChunk d)

theorem appendRx_ignoresLog (b : Byte) {k : State → State} (h : ignoresLog k) : ignoresLog (appendRx b k) :=
  ignoresLog_ite (p := fun s => rxFull s = true) (fun _ _ => Iff.rfl) (fun _ _ => rfl)
    (fun l s => h l (pushRx b s))

theorem enterExchange_ignoresLog : ignoresLog enterExchange := fun l s => by
  have hreq : stepRequest (prependLog l s) = stepRequest s := rfl
  unfold enterExchange
  rw [hreq]
  cases stepRequest s <;> rfl

theorem takeStart_ignoresLog (c : StartCmd) : ignoresLog (takeStart c) :=
  ignoresLog_ite
    (p := fun s => c.initBytes.length < 2 ^ 32 ∧ paddedLength s.cfg c.fwBytes.length < 2 ^ 32)
    (fun _ _ => Iff.rfl) (fun _ _ => rfl) (fun _ _ => rfl)

theorem beginStream_ignoresLog (space : Space) (base len : U32) : ignoresLog (beginStream space base len) :=
  ignoresLog_ite (p := fun s => (loadStream space base len s).fragMax < 1) (fun _ _ => Iff.rfl)
    (fun _ _ => rfl) (fun _ _ => rfl)

theorem enterStep_ignoresLog : ignoresLog enterStep := fun l s => by
  have hupc : (prependLog l s).upc = s.upc := rfl
  have hcmd : (prependLog l s).cmd = s.cmd := rfl
  unfold enterStep
  rw [hupc, hcmd]
  cases s.upc
  case m0 =>
    cases s.cmd with
    | none => rfl
    | some c => exact takeStart_ignoresLog c l s
  case m6 => exact beginStream_ignoresLog .initMem 0 s.initLen l (crcLoad 0 (setSeq .datStreaming s))
  case m10 =>
    exact ignoresLog_ite (p := fun s => s.fwOff = s.fwPlen) (f := goTo .done .m14)
      (g := fun s => enterExchange (setChunkLen (chunkLengthOf s) s)) (fun _ _ => Iff.rfl) (fun _ _ => rfl)
      (fun l s => enterExchange_ignoresLog l (setChunkLen (chunkLengthOf s) s)) l s
  case m11 => exact beginStream_ignoresLog .fwpad s.fwOff s.chunkLen l (setSeq .binStreaming s)
  case m14 | mf => rfl
  all_goals exact enterExchange_ignoresLog l s

theorem checkCrc_ignoresLog (q : Seq) (u : Upc) : ignoresLog (checkCrc q u) :=
  ignoresLog_ite (p := fun s => s.rsp.crc.crc ≠ s.crcAcc) (fun _ _ => Iff.rfl) (fun _ _ => rfl)
    (fun _ _ => rfl)

theorem finishSelectData_ignoresLog : ignoresLog finishSelectData :=
  ignoresLog_ite (p := fun s => (setMaxSize s.rsp.sel.maxSize s).maxSize = 0) (fun _ _ => Iff.rfl)
    (fun _ _ => rfl) (fun _ _ => rfl)

theorem finishStep_ignoresLog : ignoresLog finishStep := fun l s => by
  have hupc : (prependLog l s).upc = s.upc := rfl
  unfold finishStep
  rw [hupc]
  cases s.upc
  case m1 =>
    exact ignoresLog_ite (p := fun s => s.rsp.version ≠ s.cfg.supportedVersion) (fun _ _ => Iff.rfl)
      (fun _ _ => rfl) (fun _ _ => rfl) l s
  case m7 => exact checkCrc_ignoresLog .datCrcChecked .m8 l s
  case m9 => exact finishSelectData_ignoresLog l s
  case m12 => exact checkCrc_ignoresLog .binCrcChecked .m13 l s
  all_goals rfl

theorem endStream_ignoresLog : ignoresLog endStream := fun l s => by
  have hupc : (prependLog l s).upc = s.upc := rfl
  unfold endStream
  rw [hupc]
  cases s.upc <;> rfl

theorem fragDone_ignoresLog (d : Bytes) : ignoresLog (fragDone d) := fun l s => by
  rw [fragDone_eq, fragDone_eq]
  rfl

/-- `ignoresLog` for a meaning, which may also stop. -/
def outcomeIgnoresLog (f : State → Host.Outcome State Fault Refusal) : Prop :=
  ∀ l s, f (prependLog l s) = mapNext (prependLog l) (f s)

theorem ignoresLog.next {f : State → State} (h : ignoresLog f) : outcomeIgnoresLog fun s => .next (f s) :=
  fun l s => congrArg Host.Outcome.next (h l s)

theorem exec_ignoresLog (i : Instr) : outcomeIgnoresLog (exec i) := by
  cases i
  case getProtocolVersion | selectObject | createObject | setReceiptNotification | getMtu | getCrc | execute =>
    exact (transact_ignoresLog _).next
  case writeChunk d => exact (sendChunk_ignoresLog d).next
  case frameEscEnd => exact fun l s => (appendRx_ignoresLog s.cfg.endByte fun _ _ => rfl).next l s
  case frameEscEsc => exact fun l s => (appendRx_ignoresLog s.cfg.escByte fun _ _ => rfl).next l s
  case frameLiteral b => exact (appendRx_ignoresLog b fun _ _ => rfl).next
  all_goals exact fun _ _ => rfl

theorem streamStep_fragment {s : State} {d : Bytes} (h : s.strPtr.toNat < s.strLen.toNat)
    (hd : memRead s s.strSpace (s.strBase.toNat + s.strPtr.toNat) (fragLengthOf s) = some d) :
    streamStep s = .next (begin (.writeChunk d) s) := by
  simp only [streamStep, if_pos h, hd]

theorem streamStep_outOfRange {s : State} (h : s.strPtr.toNat < s.strLen.toNat)
    (hd : memRead s s.strSpace (s.strBase.toNat + s.strPtr.toNat) (fragLengthOf s) = none) :
    streamStep s =
      .fault (.memReadOutOfRange s.strSpace (s.strBase.toNat + s.strPtr.toNat) (fragLengthOf s)) := by
  simp only [streamStep, if_pos h, hd]

theorem streamStep_done {s : State} (h : ¬ s.strPtr.toNat < s.strLen.toNat) :
    streamStep s = .next (endStream s) := if_neg h

theorem streamStep_ignoresLog : outcomeIgnoresLog streamStep := fun l s => by
  by_cases h : s.strPtr.toNat < s.strLen.toNat
  · cases hd : memRead s s.strSpace (s.strBase.toNat + s.strPtr.toNat) (fragLengthOf s) with
    | some d =>
      rw [streamStep_fragment h hd, streamStep_fragment (s := prependLog l s) h hd]
      rfl
    | none =>
      rw [streamStep_outOfRange h hd, streamStep_outOfRange (s := prependLog l s) h hd]
      rfl
  · rw [streamStep_done h, streamStep_done (s := prependLog l s) h]
    exact endStream_ignoresLog.next l s

theorem recvStep_ignoresLog : outcomeIgnoresLog recvStep := fun l s => by
  have hrx : (prependLog l s).rx = s.rx := rfl
  have hsym (b : Byte) : symbolOfByte (prependLog l s).cfg (prependLog l s).rxEsc b =
    symbolOfByte s.cfg s.rxEsc b := rfl
  unfold recvStep
  simp only [hrx, hsym]
  rcases s.rx with _ | ⟨b | _ | _ | _, rest⟩
  case cons.byte =>
    dsimp only
    cases symbolOfByte s.cfg s.rxEsc b with
    | none => rfl
    | some i => exact exec_ignoresLog i l (popRx rest s)
  all_goals rfl

theorem parseStep_ignoresLog : outcomeIgnoresLog parseStep := fun l s => by
  have hdec : decodeResponse (prependLog l s).cfg (prependLog l s).outOp (prependLog l s).outShape
    (prependLog l s).rxBuf = decodeResponse s.cfg s.outOp s.outShape s.rxBuf := rfl
  unfold parseStep
  rw [hdec]
  cases decodeResponse s.cfg s.outOp s.outShape s.rxBuf with
  | error k => rfl
  | ok i => exact exec_ignoresLog i l s

theorem runPhase_ignoresLog : outcomeIgnoresLog runPhase := fun l s => by
  have hphase : (prependLog l s).phase = s.phase := rfl
  unfold runPhase
  rw [hphase]
  cases s.phase
  case enter => exact enterStep_ignoresLog.next l s
  case send r => exact exec_ignoresLog r.toInstr l s
  case write r => exact exec_ignoresLog r.toInstr l s
  case flush r => exact exec_ignoresLog r.toInstr l s
  case encoded => rfl
  case sent d => exact (fragDone_ignoresLog d).next l s
  case stream => exact streamStep_ignoresLog l s
  case recv => exact recvStep_ignoresLog l s
  case parse => exact parseStep_ignoresLog l s
  case finish => exact finishStep_ignoresLog.next l s

/-- Settles O59: phase by phase, no operation sees the log, and the two that write it append. -/
theorem logIsNeverRead : Obligations.LogIsNeverRead := fun s l => by
  show step (prependLog l s) = mapNext (prependLog l) (step s)
  have hhalted : halted (prependLog l s) = halted s := rfl
  unfold step
  rw [hhalted]
  cases halted s
  · exact runPhase_ignoresLog l s
  · rfl

end Sys2Proof.Machine
end

section
/-! PROOFS. The padded image and its length, the stream's reads inside their byte spaces, and the steps that put
something on the wire. -/

namespace Sys2Proof.Machine

/-! ## The padded image (R62, R68) -/

/-- An image whose length is registered is padded at its end only: neither `take` of the definition cuts. -/
theorem fwpad_eq_append {s : State} (hlen : s.fwMem.length = s.fwLen.toNat)
    (hle : s.fwLen.toNat ≤ s.fwPlen.toNat) :
    fwpad s = s.fwMem ++ List.replicate (s.fwPlen.toNat - s.fwMem.length) s.cfg.padByte := by
  rw [fwpad, ← hlen, List.take_length, List.take_of_length_le]
  simp [hlen, Nat.add_sub_cancel' hle]

theorem readByte_fwpad (s : State) (i : Nat) : readByte s .fwpad i = (fwpad s)[i]? := rfl

/-- Settles O43: the image, then the padding; the end of the view is the length of both together. -/
theorem paddedImageIsView : Obligations.PaddedImageIsView := by
  intro s i hlen hle
  simp only [readByte_fwpad]
  refine ⟨fun himage => ?_, fun hpad hend => ?_, fun hout => ?_⟩
  · rw [fwpad_eq_append hlen hle, List.getElem?_append_left himage, List.getElem?_eq_getElem himage]
  · rw [fwpad_eq_append hlen hle, List.getElem?_append_right hpad,
      List.getElem?_replicate_of_lt (Nat.sub_lt_sub_right hpad hend)]
  · exact List.getElem?_eq_none ((fwpad_length s hlen).le.trans hout)

theorem padAlign_dvd_paddedLength {c : Config} (h : 0 < c.padAlign) (n : Nat) :
    c.padAlign ∣ paddedLength c n := by
  rw [paddedLength, if_neg h.ne']
  exact Nat.dvd_mul_left _ _

/-- The padded length counts whole units of `PAD_ALIGN`: a multiple that holds the image holds those too. -/
theorem paddedLength_le_of_dvd {c : Config} {n m : Nat} (h : 0 < c.padAlign) (hm : c.padAlign ∣ m)
    (hn : n ≤ m) : paddedLength c n ≤ m := by
  obtain ⟨k, rfl⟩ := hm
  rw [paddedLength, if_neg h.ne', ← Nat.ceilDiv_eq_add_pred_div, Nat.mul_comm]
  exact Nat.mul_le_mul_left _ ((ceilDiv_le_iff_le_mul h).mpr hn)

/-- Settles O44: a length that is a multiple is itself the least one. -/
theorem paddedLengthIsLeastMultiple : Obligations.PaddedLengthIsLeastMultiple := fun _ n h =>
  ⟨padAlign_dvd_paddedLength h n, le_paddedLength h n, fun _ => paddedLength_le_of_dvd h,
    fun hdvd => (paddedLength_le_of_dvd h hdvd le_rfl).antisymm (le_paddedLength h n)⟩

/-! ## Every step of a session in order has a next state (R63) -/

/-- Every instruction is modelled and none faults. -/
theorem exec_next (i : Instr) (s : State) : ∃ t, exec i s = .next t := by
  cases i <;> exact ⟨_, rfl⟩

theorem recvStep_next (s : State) : ∃ t, recvStep s = .next t := by
  unfold recvStep
  split
  case h_5 =>
    split
    · exact ⟨_, rfl⟩
    · exact exec_next _ _
  all_goals exact ⟨_, rfl⟩

theorem parseStep_next (s : State) : ∃ t, parseStep s = .next t := by
  unfold parseStep
  split
  · exact exec_next _ _
  · exact ⟨_, rfl⟩

/-- Only the loop test of STREAM reads a byte space, so only it could be without a next state. -/
theorem runPhase_next_of_stream {s : State} (h : s.phase = .stream → ∃ t, streamStep s = .next t) :
    ∃ t, runPhase s = .next t := by
  unfold runPhase
  split
  case h_2 | h_3 | h_4 => exact exec_next _ s
  case h_7 hp => exact h hp
  case h_8 => exact recvStep_next s
  case h_9 => exact parseStep_next s
  all_goals exact ⟨_, rfl⟩

/-- The fragment at `str_ptr` ends inside the stream (R268). -/
theorem strPtr_add_fragLengthOf_le {s : State} (h : s.strPtr.toNat < s.strLen.toNat) :
    s.strPtr.toNat + fragLengthOf s ≤ s.strLen.toNat := by
  unfold fragLengthOf
  omega

/-- A stream that lies inside its space has each of its fragments, and after the last one its end. -/
theorem streamStep_next {s : State}
    (h : s.strBase.toNat + s.strLen.toNat ≤ (spaceBytes s s.strSpace).length) :
    ∃ t, streamStep s = .next t := by
  by_cases hlt : s.strPtr.toNat < s.strLen.toNat
  · have hfrag := strPtr_add_fragLengthOf_le hlt
    exact ⟨_, streamStep_fragment hlt (memRead_of_le (by omega))⟩
  · exact ⟨_, streamStep_done hlt⟩

/-- M6 streams the init packet from its first byte to its last. -/
theorem DataInv.datStream_le {s : State} (hd : DataInv s) (hu : s.upc = .m6) (hp : s.phase ≠ .enter) :
    s.strBase.toNat + s.strLen.toNat ≤ (spaceBytes s s.strSpace).length := by
  have hstr := hd.dat hu hp
  obtain ⟨hinit, -, -⟩ := hd.memory (by simp [hu]) (by simp [hu])
  rw [hstr.spaceEq, hstr.baseEq, hstr.lenEq, spaceBytes, initView_of_length s hinit, hinit]
  simp

/-- M11 streams a chunk, which ends inside the padded image. -/
theorem DataInv.binStream_le {s : State} (hd : DataInv s) (hu : s.upc = .m11) (hp : s.phase ≠ .enter) :
    s.strBase.toNat + s.strLen.toNat ≤ (spaceBytes s s.strSpace).length := by
  have hstr := hd.bin hu hp
  obtain ⟨-, hfw, -⟩ := hd.memory (by simp [hu]) (by simp [hu])
  obtain ⟨hlen, hoff⟩ := hd.chunk (.inr (.inl hu))
  rw [hstr.spaceEq, hstr.baseEq, hstr.lenEq, spaceBytes, fwpad_length s hfw]
  exact (fwOff_add_chunkLen hlen hoff).2

/-- Settles O52: a running session on the loop test of STREAM is at M6 or M11, whose stream lies inside its
space. -/
theorem sessionNeverFaults : Obligations.SessionNeverFaults := by
  intro s hc hd
  cases hh : halted s
  case true => exact ⟨s, if_pos hh⟩
  case false =>
    rw [step_of_running hh]
    refine runPhase_next_of_stream fun hp => streamStep_next ?_
    have hne : s.phase ≠ .enter := by simp [hp]
    rcases hc.phase.streaming ((halted_eq_false s).mp hh).2 (.inl hp) with hu | hu
    · exact hd.datStream_le hu hne
    · exact hd.binStream_le hu hne

/-! ## What goes on the wire (R73, R211) -/

/-- Only a write and a flush add to the log. -/
theorem StepTo.phase_of_txLog_ne {s t : State} (h : StepTo s t) (hlog : t.txLog ≠ s.txLog) :
    ∃ r, s.phase = .write r ∨ s.phase = .flush r := by
  cases h
  case written r _ hp _ _ => exact ⟨r, .inl hp⟩
  case writeFailed r _ _ hp _ _ => exact ⟨r, .inl hp⟩
  case flushed r _ hp _ _ _ => exact ⟨r, .inr hp⟩
  case chunkFlushed d _ hp _ => exact ⟨.writeChunk d, .inr hp⟩
  case flushFailed r _ _ hp _ _ => exact ⟨r, .inr hp⟩
  all_goals exact absurd rfl hlog

/-- Settles O53: an answer is awaited inside RECV only, and a write or a flush stands before it. -/
theorem noWriteWhileAwaiting : Obligations.NoWriteWhileAwaiting := by
  intro s t _ he hstep hlog
  rcases step_next hstep with ⟨-, rfl⟩ | ⟨hrun, hst⟩
  · exact absurd rfl hlog
  obtain ⟨r, hp⟩ := hst.phase_of_txLog_ne hlog
  refine Bool.eq_false_of_not_eq_true fun hawait => ?_
  have hrecv := (he.awaiting ((halted_eq_false s).mp hrun).2).mp hawait
  rcases hp with hp | hp <;> simp [hp] at hrecv

end Sys2Proof.Machine
end

section
/-! PROOFS. The three nested wire formats: decoding after encoding gives the item back, format by format; and the length
of a frame and the place of its terminator. -/

namespace Sys2Proof

/-! ## Operands of a message (R94, R97) -/

@[simp] theorem rdLe16_le16 (v : U16) : rdLe16 (le16 v) 0 = v := rdLe16_of_bytes _ _ _ rfl rfl

@[simp] theorem rdLe32_le32 (v : U32) : rdLe32 (le32 v) 0 = v := rdLe32_of_bytes _ _ _ rfl rfl rfl rfl

theorem decodeKind_kindByte {c : Config} (h : c.kindCommand ≠ c.kindData) (k : ObjectKind) :
    decodeKind c (kindByte c k) = some k := by
  cases k with
  | command => simp [decodeKind, kindByte]
  | data => simp [decodeKind, kindByte, h.symm]

@[simp] theorem decodeReq0_nil (i : Instr) (op : Byte) : decodeReq0 i op [] = .ok i := rfl

theorem decodeWithKind_kindByte {c : Config} (h : c.kindCommand ≠ c.kindData) (k : ObjectKind)
    (mk : ObjectKind → Instr) : decodeWithKind c (kindByte c k) mk = .ok (mk k) := by
  simp [decodeWithKind, decodeKind_kindByte h]

theorem decodeCreate_le32 {c : Config} (h : c.kindCommand ≠ c.kindData) (op : Byte) (k : ObjectKind) (n : U32) :
    decodeCreate c op (kindByte c k :: le32 n) = .ok (.createObject k n) :=
  (decodeWithKind_kindByte h k _).trans (congrArg (Except.ok <| Instr.createObject k ·) (rdLe32_le32 n))

theorem decodeSetPrn_le16 (op : Byte) (n : U16) : decodeSetPrn op (le16 n) = .ok (.setReceiptNotification n) :=
  congrArg (Except.ok <| Instr.setReceiptNotification ·) (rdLe16_le16 n)

/-! ## Messages (R94, R96) -/

/-- Distinctness read from the back of the list, as the decoder's dispatch uses it: it tries the opcodes in the order
of `requestOpcodes`, so one is recognised because it differs from every earlier one. -/
theorem opcode_ne_earlier {c : Config} (hops : c.requestOpcodes.Nodup) :
    (c.opHwVersion ≠ c.opWrite ∧ c.opHwVersion ≠ c.opGetMtu ∧ c.opHwVersion ≠ c.opSelect ∧
      c.opHwVersion ≠ c.opExecute ∧ c.opHwVersion ≠ c.opGetCrc ∧ c.opHwVersion ≠ c.opSetPrn ∧
      c.opHwVersion ≠ c.opCreate ∧ c.opHwVersion ≠ c.opProtocolVersion) ∧
    (c.opWrite ≠ c.opGetMtu ∧ c.opWrite ≠ c.opSelect ∧ c.opWrite ≠ c.opExecute ∧ c.opWrite ≠ c.opGetCrc ∧
      c.opWrite ≠ c.opSetPrn ∧ c.opWrite ≠ c.opCreate ∧ c.opWrite ≠ c.opProtocolVersion) ∧
    (c.opGetMtu ≠ c.opSelect ∧ c.opGetMtu ≠ c.opExecute ∧ c.opGetMtu ≠ c.opGetCrc ∧ c.opGetMtu ≠ c.opSetPrn ∧
      c.opGetMtu ≠ c.opCreate ∧ c.opGetMtu ≠ c.opProtocolVersion) ∧
    (c.opSelect ≠ c.opExecute ∧ c.opSelect ≠ c.opGetCrc ∧ c.opSelect ≠ c.opSetPrn ∧ c.opSelect ≠ c.opCreate ∧
      c.opSelect ≠ c.opProtocolVersion) ∧
    (c.opExecute ≠ c.opGetCrc ∧ c.opExecute ≠ c.opSetPrn ∧ c.opExecute ≠ c.opCreate ∧
      c.opExecute ≠ c.opProtocolVersion) ∧
    (c.opGetCrc ≠ c.opSetPrn ∧ c.opGetCrc ≠ c.opCreate ∧ c.opGetCrc ≠ c.opProtocolVersion) ∧
    (c.opSetPrn ≠ c.opCreate ∧ c.opSetPrn ≠ c.opProtocolVersion) ∧ c.opCreate ≠ c.opProtocolVersion := by
  simpa [Config.requestOpcodes] using List.nodup_reverse.mpr hops

/-- The opcode selects the request's own arm of the decoder, which reads back the operands. -/
theorem decodeRequest_encReq {c : Config} (hops : c.requestOpcodes.Nodup) (hkind : c.kindCommand ≠ c.kindData)
    (r : Request) : decodeRequest c (encReq c r) = .ok r.toInstr := by
  have hne := opcode_ne_earlier hops
  cases r with
  | getProtocolVersion => simp [encReq, decodeRequest, Request.toInstr]
  | createObject k n => simp [encReq, decodeRequest, Request.toInstr, hne, decodeCreate_le32 hkind]
  | setReceiptNotification n => simp [encReq, decodeRequest, Request.toInstr, hne, decodeSetPrn_le16]
  | getCrc => simp [encReq, decodeRequest, Request.toInstr, hne]
  | execute => simp [encReq, decodeRequest, Request.toInstr, hne]
  | selectObject k =>
    simp [encReq, decodeRequest, Request.toInstr, hne, decodeSelect, decodeWithKind_kindByte hkind]
  | getMtu => simp [encReq, decodeRequest, Request.toInstr, hne]
  | writeChunk d => simp [encReq, decodeRequest, Request.toInstr, hne]
  | getHardwareVersion => simp [encReq, decodeRequest, Request.toInstr, hne]

/-! ## Envelopes (R98, R99, R100) -/

/-- The body lengths of R100 are those of the defaults. -/
theorem shapeLenOf_eq_default {c : Config} (h : c.shapeLen = ShapeLens.layout) (shape : Shape) :
    c.shapeLenOf shape = Config.default.shapeLenOf shape := by
  cases shape <;> simp [Config.shapeLenOf, h, Config.default]

/-- A body of exactly its shape's length passes both length checks, strict or not (R179, R180). -/
theorem decodeBody_of_length_eq {c : Config} {shape : Shape} {body : Bytes} (op : Byte)
    (h : body.length = c.shapeLenOf shape) : decodeBody c op shape body = .ok (decodeShape c op shape body) := by
  simp [decodeBody, h]

theorem decodeResponse_successEnvelope (c : Config) (op : Byte) (shape : Shape) (body : Bytes) :
    decodeResponse c op shape (successEnvelope c op body) = decodeBody c op shape body := by
  simp [decodeResponse, successEnvelope]

theorem decode_successEnvelope {c : Config} {op : Byte} {shape : Shape} {body : Bytes} {i : Instr}
    (hlayout : c.shapeLen = ShapeLens.layout) (hlen : body.length = Config.default.shapeLenOf shape)
    (hshape : decodeShape c op shape body = i) :
    decode c (.envelope op shape) (successEnvelope c op body) = .ok i := by
  have hbody := decodeBody_of_length_eq op (hlen.trans (shapeLenOf_eq_default hlayout shape).symm)
  simp [decode, decodeResponse_successEnvelope, hbody, hshape]

theorem decode_rejected {c : Config} {raw : Byte} (h : raw ≠ c.resSuccess) (echo : Byte) (shape : Shape) :
    decode c (.envelope echo shape) [c.opResponse, echo, raw] = .ok (.rspRejected echo raw) := by
  simp [decode, decodeResponse, h]

/-! The bodies of R100, read back word by word. -/

theorem decodeShape_hardwareVersion (c : Config) (op : Byte) (part variant rom ram page : U32) :
    decodeShape c op .hardwareVersion (le32 part ++ le32 variant ++ le32 rom ++ le32 ram ++ le32 page) =
      .rspGetHardwareVersion part variant rom ram page := by
  rw [decodeShape]
  congr 1 <;> exact rdLe32_of_bytes _ _ _ rfl rfl rfl rfl

theorem decodeShape_selectResult (c : Config) (op : Byte) (maxSize offset crc : U32) :
    decodeShape c op .selectResult (le32 maxSize ++ le32 offset ++ le32 crc) =
      .rspSelectObject maxSize offset crc := by
  rw [decodeShape]
  congr 1 <;> exact rdLe32_of_bytes _ _ _ rfl rfl rfl rfl

theorem decodeShape_crcResult (c : Config) (op : Byte) (offset crc : U32) :
    decodeShape c op .crcResult (le32 offset ++ le32 crc) = .rspGetCrc offset crc := by
  rw [decodeShape]
  congr 1 <;> exact rdLe32_of_bytes _ _ _ rfl rfl rfl rfl

theorem decodeShape_mtu (c : Config) (op : Byte) (m : U16) : decodeShape c op .mtu (le16 m) = .rspGetMtu m := by
  rw [decodeShape, rdLe16_le16]

/-- The four acknowledged requests have four opcodes, so the echo names the row (R99). -/
theorem ackRow_of_nodup {c : Config} (hops : c.requestOpcodes.Nodup) :
    ackRow c c.opCreate = .rspCreateObject ∧ ackRow c c.opSetPrn = .rspSetReceiptNotification ∧
    ackRow c c.opExecute = .rspExecute ∧ ackRow c c.opWrite = .rspWriteChunk := by
  simp [ackRow, opcode_ne_earlier hops]

/-! ## Frame symbols (R91, R92) -/

theorem decode_symbol_one {c : Config} {b : Byte} {i : Instr} (h : symbolOfByte c false b = some i) :
    decode c .symbol [b] = .ok i := by
  simp [decode, decodeSymbol, h]

theorem decode_symbol_pair {c : Config} {x : Byte} {i : Instr} (hesc : c.escByte ≠ c.endByte)
    (h : symbolOfByte c true x = some i) : decode c .symbol [c.escByte, x] = .ok i := by
  simp [decode, decodeSymbol, (symbolOfByte_false_eq_none_iff c _).mpr ⟨rfl, hesc⟩, h]

theorem symbolOfByte_literal {c : Config} {b : Byte} (hend : b ≠ c.endByte) (hesc : b ≠ c.escByte) :
    symbolOfByte c false b = some (.frameLiteral b) := by
  simp [symbolOfByte, hend, hesc]

theorem symbolOfByte_badEscape {c : Config} {x : Byte} (hend : x ≠ c.subEnd) (hesc : x ≠ c.subEsc) :
    symbolOfByte c true x = some (.frameBadEscape x) := by
  simp [symbolOfByte, hend, hesc]

/-! ## The round trip -/

/-- Settles O4: the nine requests are messages, the ten responses envelopes and the five frame symbols one byte or a
pair; each of the three decoders undoes its own encoder. -/
theorem decodeOfEncodeIsIdentity : Obligations.DecodeOfEncodeIsIdentity := by
  intro c i hok hlayout hwf
  obtain ⟨⟨hend, hsub, -, -⟩, hops, -, -, hkind, -, -⟩ := hok
  obtain ⟨hcreate, hprn, hexecute, hwrite⟩ := ackRow_of_nodup hops
  have hrequest : ∀ r : Request, decode c .message (encReq c r) = .ok r.toInstr := decodeRequest_encReq hops hkind
  cases i with
  | getProtocolVersion => exact hrequest .getProtocolVersion
  | getHardwareVersion => exact hrequest .getHardwareVersion
  | selectObject k => exact hrequest (.selectObject k)
  | createObject k n => exact hrequest (.createObject k n)
  | setReceiptNotification n => exact hrequest (.setReceiptNotification n)
  | getMtu => exact hrequest .getMtu
  | writeChunk d => exact hrequest (.writeChunk d)
  | getCrc => exact hrequest .getCrc
  | execute => exact hrequest .execute
  | rspGetProtocolVersion v => exact decode_successEnvelope hlayout rfl rfl
  | rspGetHardwareVersion part variant rom ram page =>
    exact decode_successEnvelope hlayout rfl (decodeShape_hardwareVersion ..)
  | rspSelectObject maxSize offset crc => exact decode_successEnvelope hlayout rfl (decodeShape_selectResult ..)
  | rspCreateObject => exact decode_successEnvelope hlayout rfl hcreate
  | rspSetReceiptNotification => exact decode_successEnvelope hlayout rfl hprn
  | rspGetMtu m => exact decode_successEnvelope hlayout rfl (decodeShape_mtu ..)
  | rspWriteChunk => exact decode_successEnvelope hlayout rfl hwrite
  | rspGetCrc offset crc => exact decode_successEnvelope hlayout rfl (decodeShape_crcResult ..)
  | rspExecute => exact decode_successEnvelope hlayout rfl hexecute
  | rspRejected echo raw =>
    obtain ⟨-, hraw⟩ : echo ∈ c.requestOpcodes ∧ raw ≠ c.resSuccess := by simpa [Instr.wf] using hwf
    exact decode_rejected hraw echo _
  | frameEnd => exact decode_symbol_one (by simp [symbolOfByte])
  | frameEscEnd => exact decode_symbol_pair hend.symm (by simp [symbolOfByte])
  | frameEscEsc => exact decode_symbol_pair hend.symm (by simp [symbolOfByte, hsub.symm])
  | frameLiteral b =>
    obtain ⟨hbEnd, hbEsc⟩ : b ≠ c.endByte ∧ b ≠ c.escByte := by simpa [Instr.wf] using hwf
    exact decode_symbol_one (symbolOfByte_literal hbEnd hbEsc)
  | frameBadEscape x =>
    obtain ⟨hxEnd, hxEsc⟩ : x ≠ c.subEnd ∧ x ≠ c.subEsc := by simpa [Instr.wf] using hwf
    exact decode_symbol_pair hend.symm (symbolOfByte_badEscape hxEnd hxEsc)

/-- Settles O10: a word's first byte chooses the layer, and each layer's decoder evaluates. -/
theorem sampleWordsDecode : Obligations.SampleWordsDecode := ⟨by decide, by decide, by decide, by decide, by decide⟩

/-! ## Length and terminator of a frame (R92, R93, R133) -/

/-- The bytes that a frame writes as a pair. -/
def escaped (c : Config) (b : Byte) : Bool := decide (b = c.endByte) || decide (b = c.escByte)

theorem length_sym (c : Config) (b : Byte) : (sym c b).length = 1 + if escaped c b then 1 else 0 := by
  obtain ⟨hb, hsym⟩ | ⟨-, hb, hsym⟩ | ⟨hend, hesc, hsym⟩ := sym_cases c b
  · rw [hsym]; simp [escaped, hb]
  · rw [hsym]; simp [escaped, hb]
  · rw [hsym]; simp [escaped, hend, hesc]

theorem length_frame (c : Config) (p : Bytes) : (frame c p).length = p.length + p.countP (escaped c) + 1 := by
  induction p with
  | nil => rfl
  | cons b p ih =>
    rw [frame_cons, List.length_append, length_sym, ih, List.length_cons, List.countP_cons]
    omega

/-- Settles O6: at least none and at most all of the payload's bytes are escaped. -/
theorem frameLengthCountsEscapes : Obligations.FrameLengthCountsEscapes := by
  intro c p
  have hlen := length_frame c p
  have hle : p.countP (escaped c) ≤ p.length := List.countP_le_length
  exact ⟨hlen, by omega, by omega⟩

theorem endByte_notMem_sym {c : Config} (h : c.framingOk) (b : Byte) : c.endByte ∉ sym c b := by
  obtain ⟨hend, -, hsubEnd, hsubEsc⟩ := h
  obtain ⟨-, hsym⟩ | ⟨-, -, hsym⟩ | ⟨hb, -, hsym⟩ := sym_cases c b
  · simp [hsym, hend, hsubEnd.symm]
  · simp [hsym, hend, hsubEsc.symm]
  · simp [hsym, Ne.symm hb]

/-- Settles O7: the body is the payload's symbols, none of which holds the terminator. -/
theorem terminatorOccursOnlyAtFrameEnd : Obligations.TerminatorOccursOnlyAtFrameEnd := by
  refine fun c p h => ⟨p.flatMap (sym c), rfl, fun hmem => ?_⟩
  obtain ⟨b, -, hb⟩ := List.mem_flatMap.mp hmem
  exact endByte_notMem_sym h b hb

end Sys2Proof
end

section
/-! PROOFS. The frame codec on the machine: what each received symbol does, that the decoder undoes the encoder and accepts
nothing else, and the exchange of a request with its answer. -/

namespace Sys2Proof.Machine

/-! ## Several steps -/

theorem run_succ_of_step {s t : State} (h : step s = .next t) (n : Nat) : run (n + 1) s = run n t := by
  have hcore : core.step s = .next t := h
  change Host.Core.run core (n + 1) s = Host.Core.run core n t
  simp only [Host.Core.run, hcore]

theorem run_one (s : State) : run 1 s = step s := by
  change Host.Core.run core 1 s = core.step s
  cases h : core.step s <;> simp only [Host.Core.run, h]

/-- A first step of a run that ends in a next state has one too. -/
theorem exists_step_of_run_succ {s t : State} {n : Nat} (h : run (n + 1) s = .next t) :
    ∃ u, step s = .next u ∧ run n u = .next t := by
  cases hstep : step s with
  | next u => exact ⟨u, rfl, by rwa [run_succ_of_step hstep] at h⟩
  | fault e => simp [run, Host.Core.run, show core.step s = .fault e from hstep] at h
  | refused e => simp [run, Host.Core.run, show core.step s = .refused e from hstep] at h

theorem run_add {s t : State} {m : Nat} (h : run m s = .next t) (n : Nat) : run (m + n) s = run n t := by
  induction m generalizing s with
  | zero => cases h; rw [Nat.zero_add]
  | succ m ih =>
    obtain ⟨u, hstep, hrun⟩ := exists_step_of_run_succ h
    rw [Nat.add_right_comm, run_succ_of_step hstep, ih hrun]

/-- A halted engine stays where it is for good (R266). -/
theorem run_of_halted {s : State} (h : halted s = true) (n : Nat) : run n s = .next s := by
  induction n with
  | zero => rfl
  | succ n ih => rw [run_succ_of_step (if_pos h), ih]

/-! ## What a frame symbol does (R137 to R142) -/

theorem appendRx_of_room {s : State} (h : rxFull s = false) (b : Byte) (k : State → State) :
    appendRx b k s = k (pushRx b s) := by
  simp [appendRx, h]

theorem appendRx_of_full {s : State} (h : rxFull s = true) (b : Byte) (k : State → State) :
    appendRx b k s = raise (.framing .overflow) s := by
  simp [appendRx, h]

theorem exec_frameLiteral {s : State} (h : rxFull s = false) (b : Byte) :
    exec (.frameLiteral b) s = .next (pushRx b s) :=
  congrArg Host.Outcome.next (appendRx_of_room h b id)

theorem exec_frameEscEnd {s : State} (h : rxFull s = false) :
    exec .frameEscEnd s = .next (clearEsc (pushRx s.cfg.endByte s)) :=
  congrArg Host.Outcome.next (appendRx_of_room h _ clearEsc)

theorem exec_frameEscEsc {s : State} (h : rxFull s = false) :
    exec .frameEscEsc s = .next (clearEsc (pushRx s.cfg.escByte s)) :=
  congrArg Host.Outcome.next (appendRx_of_room h _ clearEsc)

theorem rxFull_of_cap_le {s : State} {n : Nat} (hcap : s.cfg.rxCap = some n) (h : n ≤ s.rxBuf.length) :
    rxFull s = true := by
  simp [rxFull, hcap, h]

/-- Settles O23: with room in the buffer each append goes on. -/
theorem frameSymbolsBuildPayload : Obligations.FrameSymbolsBuildPayload := by
  refine fun s => ⟨rfl, fun x => rfl, fun hroom => ?_⟩
  have hfull : rxFull s = false := (rxFull_eq_false s).mpr hroom
  exact ⟨exec_frameLiteral hfull, exec_frameEscEnd hfull, exec_frameEscEsc hfull⟩

/-- Settles O24: each of the three symbols is an append with something after it. -/
theorem fullReceiveBufferAborts : Obligations.FullReceiveBufferAborts := by
  intro s n i hcap hlen hi
  have hfull := rxFull_of_cap_le hcap hlen
  rcases hi with rfl | rfl | ⟨b, rfl⟩
  · exact congrArg Host.Outcome.next (appendRx_of_full hfull _ clearEsc)
  · exact congrArg Host.Outcome.next (appendRx_of_full hfull _ clearEsc)
  · exact congrArg Host.Outcome.next (appendRx_of_full hfull b id)

/-! ## One event of the decoder (R135, R141) -/

theorem step_recv {s : State} (hrun : halted s = false) (hp : s.phase = .recv) : step s = recvStep s :=
  (step_of_running hrun).trans (runPhase_recv hp)

/-- Settles O25: an end event is looked at before `rx_buf` and `rx_esc` are. -/
theorem endEventsAbortReceive : Obligations.EndEventsAbortReceive := by
  intro s hp hrun
  rw [step_recv hrun hp]
  refine ⟨fun rest hrx => ?eof, fun rest hrx => ?timeout, fun rest hrx => ?ioErr⟩
  all_goals simp only [recvStep, hrx]; rfl

theorem clearEsc_eq_self {s : State} (h : s.rxEsc = false) : clearEsc s = s := by
  rw [clearEsc, ← h]

theorem step_symbol {s : State} {b : Byte} {rest : List RxEvent} {i : Instr} (hp : s.phase = .recv)
    (hrun : halted s = false) (hrx : s.rx = .byte b :: rest) (h : symbolOfByte s.cfg s.rxEsc b = some i) :
    step s = exec i (popRx rest s) :=
  (step_recv hrun hp).trans (recvStep_symbol hrx h)

/-- The two bytes of a pair: the `ESC` is consumed and its substitute completes the symbol (R138, R140). -/
theorem run_pair {s : State} {x : Byte} {rest : List RxEvent} {i : Instr} (hp : s.phase = .recv)
    (hrun : halted s = false) (hesc : s.rxEsc = false) (hend : s.cfg.endByte ≠ s.cfg.escByte)
    (hrx : s.rx = .byte s.cfg.escByte :: .byte x :: rest) (h : symbolOfByte s.cfg true x = some i) :
    run 2 s = exec i (setEsc (popRx rest s)) := by
  have hopens : symbolOfByte s.cfg s.rxEsc s.cfg.escByte = none := by
    rw [hesc]
    exact (symbolOfByte_false_eq_none_iff _ _).mpr ⟨rfl, hend.symm⟩
  have hopen : step s = .next (setEsc (popRx (.byte x :: rest) s)) :=
    (step_recv hrun hp).trans (recvStep_prefix hrx hopens)
  rw [run_succ_of_step hopen, run_one]
  exact step_symbol hp hrun rfl h

/-- The bytes of one symbol append the byte it stands for and leave the decoder between two symbols (R139, R140). -/
theorem run_sym {s : State} {b : Byte} {rest : List RxEvent} (hp : s.phase = .recv) (hrun : halted s = false)
    (hesc : s.rxEsc = false) (hok : s.cfg.framingOk) (hroom : rxFull s = false)
    (hrx : s.rx = (sym s.cfg b).map RxEvent.byte ++ rest) :
    run (sym s.cfg b).length s = .next (pushRx b (popRx rest s)) := by
  obtain ⟨hend, hsub, -, -⟩ := hok
  have hclear : clearEsc (pushRx b (setEsc (popRx rest s))) = pushRx b (popRx rest s) :=
    clearEsc_eq_self (s := pushRx b (popRx rest s)) hesc
  obtain ⟨rfl, hsym⟩ | ⟨-, rfl, hsym⟩ | ⟨hbEnd, hbEsc, hsym⟩ := sym_cases s.cfg b <;>
    rw [hsym] at hrx ⊢
  · calc run 2 s = exec .frameEscEnd (setEsc (popRx rest s)) :=
        run_pair hp hrun hesc hend hrx (by simp [symbolOfByte])
      _ = .next (clearEsc (pushRx s.cfg.endByte (setEsc (popRx rest s)))) := exec_frameEscEnd hroom
      _ = .next (pushRx s.cfg.endByte (popRx rest s)) := congrArg Host.Outcome.next hclear
  · calc run 2 s = exec .frameEscEsc (setEsc (popRx rest s)) :=
        run_pair hp hrun hesc hend hrx (by simp [symbolOfByte, hsub.symm])
      _ = .next (clearEsc (pushRx s.cfg.escByte (setEsc (popRx rest s)))) := exec_frameEscEsc hroom
      _ = .next (pushRx s.cfg.escByte (popRx rest s)) := congrArg Host.Outcome.next hclear
  · have hliteral : symbolOfByte s.cfg s.rxEsc b = some (.frameLiteral b) := by
      rw [hesc]
      exact symbolOfByte_literal hbEnd hbEsc
    calc run 1 s = step s := run_one s
      _ = exec (.frameLiteral b) (popRx rest s) := step_symbol hp hrun hrx hliteral
      _ = .next (pushRx b (popRx rest s)) := exec_frameLiteral (s := popRx rest s) hroom b

/-! ## The decoder undoes the encoder (R143) -/

/-- Between two symbols of a frame the rest of the frame is decoded behind what the buffer holds. -/
theorem run_frame {s : State} {p : Bytes} {rest : List RxEvent} (hp : s.phase = .recv) (hrun : halted s = false)
    (hesc : s.rxEsc = false) (hok : s.cfg.framingOk)
    (hroom : ∀ n ∈ s.cfg.rxCap, s.rxBuf.length + p.length ≤ n)
    (hrx : s.rx = (frame s.cfg p).map RxEvent.byte ++ rest) :
    run (frame s.cfg p).length s = .next { s with rx := rest, rxBuf := s.rxBuf ++ p, phase := .parse } := by
  induction p generalizing s with
  | nil =>
    have hsymbol : symbolOfByte s.cfg s.rxEsc s.cfg.endByte = some .frameEnd := by simp [symbolOfByte, hesc]
    calc run 1 s = step s := run_one s
      _ = exec .frameEnd (popRx rest s) := step_symbol hp hrun hrx hsymbol
      _ = .next { s with rx := rest, rxBuf := s.rxBuf ++ [], phase := .parse } := by rw [List.append_nil]; rfl
  | cons b p ih =>
    have hfull : rxFull s = false := (rxFull_eq_false s).mpr fun n hn => by
      have := hroom n hn
      simp only [List.length_cons] at this
      omega
    obtain ⟨line, hline⟩ : ∃ line, line = (frame s.cfg p).map RxEvent.byte ++ rest := ⟨_, rfl⟩
    have hsym : run (sym s.cfg b).length s = .next (pushRx b (popRx line s)) :=
      run_sym hp hrun hesc hok hfull (by simpa [hline] using hrx)
    rw [frame_cons, List.length_append, run_add hsym]
    refine (ih (s := pushRx b (popRx line s)) hp hrun hesc hok (fun n hn => ?_) hline).trans ?_
    · simpa [Nat.add_assoc, Nat.add_comm 1] using hroom n hn
    · rw [pushRx_rxBuf, List.append_assoc]
      rfl

/-- Settles O27: the decoder starts between two symbols, on an empty buffer. -/
theorem decoderRecoversFramedPayload : Obligations.DecoderRecoversFramedPayload := by
  intro s p rest hp hrun hbuf hesc hok hroom hrx
  have h := run_frame hp hrun hesc hok (fun n hn => by simpa [hbuf] using hroom n hn) hrx
  rwa [hbuf, List.nil_append] at h

/-! ## The decoder accepts only frames (R143) -/

/-- The line as the symbol under way sees it: an `ESC` that has opened a pair still stands before the rest. -/
def symbolLine (s : State) : List RxEvent :=
  if s.rxEsc then .byte s.cfg.escByte :: s.rx else s.rx

theorem symbolLine_of_clear {s : State} (h : s.rxEsc = false) : symbolLine s = s.rx := by
  simp [symbolLine, h]

theorem symbolLine_of_set {s : State} (h : s.rxEsc = true) :
    symbolLine s = .byte s.cfg.escByte :: s.rx := by
  simp [symbolLine, h]

/-- From `s` to `t` the decoder has taken the symbols of `q` off the line and appended `q`, and is still inside the
frame. -/
structure TookSymbols (q : Bytes) (s t : State) : Prop where
  phase : t.phase = .recv
  running : halted t = false
  cfg : t.cfg = s.cfg
  buf : t.rxBuf = s.rxBuf ++ q
  line : symbolLine s = (q.flatMap (sym s.cfg)).map RxEvent.byte ++ symbolLine t

/-- From `s` to `t` the decoder has taken the terminator. -/
structure TookEnd (s t : State) : Prop where
  phase : t.phase = .parse
  buf : t.rxBuf = s.rxBuf
  line : symbolLine s = .byte s.cfg.endByte :: t.rx

/-- One step of the decoder: it aborts, takes at most one symbol and goes on, or takes the terminator. -/
theorem StepTo.recv_cases {s t : State} (h : StepTo s t) (hp : s.phase = .recv) (hrun : halted s = false)
    (hend : s.cfg.endByte ≠ s.cfg.escByte) :
    (halted t = true ∧ t.phase = .recv) ∨ (∃ q, TookSymbols q s t) ∨ TookEnd s t := by
  cases h
  case blocked => exact .inr (.inl ⟨[], hp, hrun, rfl, by simp, by simp⟩)
  case recvEsc rest _ hrx hesc _ =>
    refine .inr (.inl ⟨[], hp, hrun, rfl, by simp, ?_⟩)
    rw [symbolLine_of_clear hesc, symbolLine_of_set (setEsc_rxEsc _), hrx]
    rfl
  case recvLiteral b rest _ hrx hesc hbEnd hbEsc _ =>
    refine .inr (.inl ⟨[b], hp, hrun, rfl, rfl, ?_⟩)
    have hesc' : (pushRx b (popRx rest s)).rxEsc = false := hesc
    rw [symbolLine_of_clear hesc, symbolLine_of_clear hesc', hrx]
    simp [sym, hbEnd, hbEsc]
  case recvEscEnd rest _ hrx hesc _ =>
    refine .inr (.inl ⟨[s.cfg.endByte], hp, hrun, rfl, rfl, ?_⟩)
    rw [symbolLine_of_set hesc, symbolLine_of_clear (clearEsc_rxEsc _), hrx]
    simp [sym]
  case recvEscEsc rest _ hrx hesc _ _ =>
    refine .inr (.inl ⟨[s.cfg.escByte], hp, hrun, rfl, rfl, ?_⟩)
    rw [symbolLine_of_set hesc, symbolLine_of_clear (clearEsc_rxEsc _), hrx]
    simp [sym, hend.symm]
  case recvEnd rest _ hrx hesc =>
    exact .inr (.inr ⟨rfl, rfl, (symbolLine_of_clear hesc).trans hrx⟩)
  case recvEof | recvTimeout | recvIoErr | recvOverflow | recvBadEscape => exact .inl ⟨rfl, hp⟩
  -- every other way begins in another phase
  all_goals simp_all

/-- Wherever the decoder stands inside a frame, the line up to the end of that frame is the frame of the bytes it still
appends. -/
theorem symbolLine_eq_frame {t : State} {n : Nat} {s : State} (hp : s.phase = .recv) (hrun : halted s = false)
    (hend : s.cfg.endByte ≠ s.cfg.escByte) (ht : run n s = .next t) (hparse : t.phase = .parse)
    (hinside : ∀ k u, k < n → run k s = .next u → u.phase = .recv) :
    ∃ q, t.rxBuf = s.rxBuf ++ q ∧ symbolLine s = (frame s.cfg q).map RxEvent.byte ++ t.rx := by
  induction n generalizing s with
  | zero => cases ht; simp [hp] at hparse
  | succ n ih =>
    obtain ⟨u, hstep, hut⟩ := exists_step_of_run_succ ht
    obtain ⟨hhalt, -⟩ | ⟨-, hto⟩ := step_next hstep
    · simp [hrun] at hhalt
    have hinside' : ∀ k v, k < n → run k u = .next v → v.phase = .recv := fun k v hk hv =>
      hinside (k + 1) v (by omega) (by rw [run_succ_of_step hstep, hv])
    obtain ⟨hhalt, hrecv⟩ | ⟨q, htook⟩ | htook := hto.recv_cases hp hrun hend
    · rw [run_of_halted hhalt] at hut
      cases hut
      simp [hrecv] at hparse
    · obtain ⟨q', hbuf, hline⟩ := ih htook.phase htook.running (by rwa [htook.cfg]) hut hinside'
      refine ⟨q ++ q', by rw [hbuf, htook.buf, List.append_assoc], ?_⟩
      rw [htook.line, hline, htook.cfg]
      simp [frame]
    · cases n with
      | zero =>
        cases hut
        exact ⟨[], by simp [htook.buf], htook.line⟩
      | succ n => simpa [htook.phase] using hinside' 0 u (by omega) rfl

/-- Settles O28: at the start no pair has begun and nothing has been appended. -/
theorem decoderAcceptsOnlyFrames : Obligations.DecoderAcceptsOnlyFrames := by
  intro s t n hp hrun hbuf hesc hok ht hparse hinside
  obtain ⟨q, hq, hline⟩ := symbolLine_eq_frame hp hrun hok.1 ht hparse hinside
  rw [hbuf, List.nil_append] at hq
  rw [hq, ← hline, symbolLine_of_clear hesc]

/-! ## The encoder (R131 to R133) -/

/-- A decoder without a limit at the start of a line. -/
def decoderAt (c : Config) (line : Bytes) : State :=
  { State.resetWith { c with rxCap := none } with rx := line.map RxEvent.byte, phase := .recv }

/-- `FRAME` reads the framing bytes of the configuration only, so the unlimited decoder recovers the payload. -/
theorem run_decoderAt_frame {c : Config} (h : c.framingOk) (p : Bytes) :
    run (frame c p).length (decoderAt c (frame c p)) =
      .next { decoderAt c (frame c p) with rx := [], rxBuf := p, phase := .parse } :=
  decoderRecoversFramedPayload (decoderAt c (frame c p)) p [] rfl rfl rfl rfl h (by simp [decoderAt, State.resetWith])
    (List.append_nil _).symm

/-- Settles O8: the decoder is a left inverse of the encoder. -/
theorem frameIsInjective : Obligations.FrameIsInjective := by
  intro c p q h hpq
  have hp := run_decoderAt_frame h p
  rw [hpq, run_decoderAt_frame h q] at hp
  injection hp with hstate
  exact (congrArg State.rxBuf hstate).symm

/-- Settles O9, by induction on the payload with the buffer free. -/
theorem serialEncoderEmitsFrame : Obligations.SerialEncoderEmitsFrame := by
  intro c p
  induction p with
  | nil => exact fun out => rfl
  | cons b p ih =>
    intro out
    rw [encodeSerial, ih, frame_cons, List.append_assoc]

/-! ## XACT of the seven awaited requests (R211, R214) -/

/-- The requests whose answer is awaited (R167, R162). -/
def isAwaited (r : Request) : Prop := (∀ d, r ≠ .writeChunk d) ∧ r ≠ .getHardwareVersion

theorem exec_awaited {r : Request} (h : isAwaited r) (s : State) :
    exec r.toInstr s = .next (transact r s) := by
  obtain ⟨hchunk, hversion⟩ := h
  cases r with
  | writeChunk d => exact absurd rfl (hchunk d)
  | getHardwareVersion => exact absurd rfl hversion
  | _ => rfl

/-- The flush is answered: the request is outstanding and DECODE_FRAME begins (R214, R136). -/
theorem transact_flush {s : State} {r : Request} {rest : List TxResult} (hp : s.phase = .flush r)
    (htx : s.tx = .ok :: rest) : transact r s = beginDecode (setAwaiting r (logFlush .flushed rest s)) := by
  rw [transact, sendStep_flush _ _ r _ hp]
  simp only [txFlush, htx]

/-- The write is answered: the whole of `tx_buf` is in the log (R211). -/
theorem transact_write {s : State} {r : Request} {rest : List TxResult} (hp : s.phase = .write r)
    (htx : s.tx = .ok :: rest) : transact r s = setPhase (.flush r) (logWrite s.txBuf.length rest s) := by
  rw [transact, sendStep_write _ _ r _ hp]
  simp only [txWrite, htx]

theorem transact_send {s : State} {r : Request} (hp : s.phase = .send r) : transact r s = sendEncode r s :=
  sendStep_start _ r s (by simp [hp]) (by simp [hp])

theorem step_awaited {s : State} {r : Request} (h : isAwaited r) (hrun : halted s = false)
    (hp : s.phase = .send r ∨ s.phase = .write r ∨ s.phase = .flush r) : step s = .next (transact r s) := by
  rw [step_of_running hrun, runPhase_request hp, exec_awaited h]

theorem step_send {s : State} {r : Request} (h : isAwaited r) (hrun : halted s = false)
    (hp : s.phase = .send r) : step s = .next (sendEncode r s) := by
  rw [step_awaited h hrun (.inl hp), transact_send hp]

theorem step_write {s : State} {r : Request} {rest : List TxResult} (h : isAwaited r) (hrun : halted s = false)
    (hp : s.phase = .write r) (htx : s.tx = .ok :: rest) :
    step s = .next (setPhase (.flush r) (logWrite s.txBuf.length rest s)) := by
  rw [step_awaited h hrun (.inr (.inl hp)), transact_write hp htx]

theorem step_flush {s : State} {r : Request} {rest : List TxResult} (h : isAwaited r) (hrun : halted s = false)
    (hp : s.phase = .flush r) (htx : s.tx = .ok :: rest) :
    step s = .next (beginDecode (setAwaiting r (logFlush .flushed rest s))) := by
  rw [step_awaited h hrun (.inr (.inr hp)), transact_flush hp htx]

/-- Settles O16: the flush is answered, so the wait begins. -/
theorem flushedRequestIsAwaited : Obligations.FlushedRequestIsAwaited := by
  intro s r rest hp htx hchunk hversion
  rw [exec_awaited ⟨hchunk, hversion⟩, transact_flush hp htx]
  rfl

/-- The state in which an awaited request has been sent and its answer has not begun to arrive. -/
def sentAwaiting (r : Request) (txRest : List TxResult) (s : State) : State :=
  { s with
    txBuf := frame s.cfg (encReq s.cfg r), rxBuf := [], rxEsc := false, awaiting := true,
    outOp := opcodeOf s.cfg r, outShape := shapeFor r, tx := txRest,
    txLog := s.txLog ++ sentMarks s.cfg r, phase := .recv }

/-- The issuing half of an XACT: encode, write, flush. -/
theorem run_send {s : State} {r : Request} {txRest : List TxResult} (h : isAwaited r)
    (hrun : halted s = false) (hp : s.phase = .send r) (htx : s.tx = .ok :: .ok :: txRest) :
    run 3 s = .next (sentAwaiting r txRest s) := by
  have hwrite := step_write (s := sendEncode r s) h hrun rfl htx
  rw [run_succ_of_step (step_send h hrun hp), run_succ_of_step hwrite, run_one]
  refine Eq.trans (step_flush h hrun rfl rfl) ?_
  rw [logWrite, List.take_length, sentAwaiting, sentMarks, ← List.append_assoc]
  rfl

/-- An accepted answer writes `rsp` from what it held, the same in every state, and ends the wait. -/
theorem exec_accepted {c : Config} {op : Byte} {shape : Shape} {p : Bytes} {i : Instr}
    (h : decodeResponse c op shape p = .ok i) (hi : ∀ e w, i ≠ .rspRejected e w) :
    ∃ f : Rsp → Rsp, ∀ s, exec i s = .next (respond (f s.rsp) s) := by
  obtain ⟨e, w, rfl⟩ | ⟨body, rfl⟩ := decodeResponse_ok h
  · exact absurd rfl (hi e w)
  cases shape with
  | protocolVersion => exact ⟨fun v => { v with version := _ }, fun s => rfl⟩
  | hardwareVersion => exact ⟨fun v => { v with hw := _ }, fun s => rfl⟩
  | selectResult => exact ⟨fun v => { v with sel := _ }, fun s => rfl⟩
  | mtu => exact ⟨fun v => { v with mtu := _ }, fun s => rfl⟩
  | crcResult => exact ⟨fun v => { v with crc := _ }, fun s => rfl⟩
  | empty =>
    refine ⟨id, fun s => ?_⟩
    simp only [decodeShape, ackRow]
    split_ifs <;> rfl

theorem step_parse {s : State} {i : Instr} (hrun : halted s = false) (hp : s.phase = .parse)
    (h : decodeResponse s.cfg s.outOp s.outShape s.rxBuf = .ok i) : step s = exec i s := by
  rw [step_of_running hrun, runPhase_parse hp, parseStep_ok h]

/-- Settles O45: the request is sent, its answer's frame decoded and the payload parsed. -/
theorem exchangeCompletes : Obligations.ExchangeCompletes := by
  intro s r i p rest txRest hrun hp hchunk hversion hok hroom htx hrx hdec hi
  obtain ⟨f, hexec⟩ := exec_accepted hdec hi
  have hsend : run 3 s = .next (sentAwaiting r txRest s) := run_send ⟨hchunk, hversion⟩ hrun hp htx
  have hrecv : run (frame s.cfg p).length (sentAwaiting r txRest s) =
      .next { sentAwaiting r txRest s with rx := rest, rxBuf := p, phase := .parse } :=
    decoderRecoversFramedPayload (sentAwaiting r txRest s) p rest rfl hrun rfl rfl hok hroom hrx
  have hsteps : 4 + (frame s.cfg p).length = 3 + ((frame s.cfg p).length + 1) := by omega
  refine ⟨_, _, ?_, hexec s, rfl⟩
  rw [hsteps, run_add hsend, run_add hrecv, run_one]
  exact Eq.trans (step_parse hrun rfl hdec) (hexec _)

end Sys2Proof.Machine
end

section
/-! PROOFS. The message protocol: messages tell requests apart, a request on its way out, and the checks of a response in
their order. -/

namespace Sys2Proof

/-! ## Messages (R94, R170) -/

theorem requestOf_toInstr (r : Request) : Machine.requestOf r.toInstr = some r := by
  cases r <;> rfl

/-- No two requests share a row. -/
theorem Request.toInstr_injective : Function.Injective Request.toInstr := fun r r' h =>
  Option.some.inj <| calc
    some r = Machine.requestOf r.toInstr := (requestOf_toInstr r).symm
    _ = Machine.requestOf r'.toInstr := congrArg Machine.requestOf h
    _ = some r' := requestOf_toInstr r'

/-- Settles O5: a reader of messages recovers the request's row, and the row names the request. -/
theorem requestMessagesAreInjective : Obligations.RequestMessagesAreInjective := by
  intro c r r' hops hkind hmsg
  have hread := decodeRequest_encReq hops hkind r
  rw [hmsg, decodeRequest_encReq hops hkind r'] at hread
  exact Request.toInstr_injective (Except.ok.inj hread).symm

/-! ## The checks of a response, each after those before it have passed (R175 to R180, R308) -/

section Envelope
variable (c : Config) (op : Byte) (shape : Shape)

theorem decodeResponse_nil :
    decodeResponse c op shape [] = .error (.malformedResponse (.shortEnvelope 0)) := rfl

theorem decodeResponse_badOpcode {p0 : Byte} (h : p0 ≠ c.opResponse) (t : Bytes) :
    decodeResponse c op shape (p0 :: t) = .error (.protocolDesync (.badResponseOpcode p0)) := by
  simp [decodeResponse, h]

theorem decodeResponse_opcodeOnly :
    decodeResponse c op shape [c.opResponse] = .error (.malformedResponse (.shortEnvelope 1)) := by
  simp [decodeResponse]

theorem decodeResponse_echoMismatch {p1 : Byte} (h : p1 ≠ op) (t : Bytes) :
    decodeResponse c op shape (c.opResponse :: p1 :: t) = .error (.protocolDesync (.echoMismatch op p1)) := by
  simp [decodeResponse, h]

theorem decodeResponse_echoOnly :
    decodeResponse c op shape [c.opResponse, op] = .error (.malformedResponse (.shortEnvelope 2)) := by
  simp [decodeResponse]

/-- The body of a rejection is not looked at (R178). -/
theorem decodeResponse_rejected {p2 : Byte} (h : p2 ≠ c.resSuccess) (t : Bytes) :
    decodeResponse c op shape (c.opResponse :: op :: p2 :: t) = .ok (.rspRejected op p2) := by
  simp [decodeResponse, h]

variable {c shape} {body : Bytes}

theorem decodeBody_short (h : body.length < c.shapeLenOf shape) :
    decodeBody c op shape body = .error (.malformedResponse (.shortBody shape body.length)) := if_pos h

theorem decodeBody_long (hstrict : c.strictLength = true) (h : c.shapeLenOf shape < body.length) :
    decodeBody c op shape body = .error (.malformedResponse (.longBody shape body.length)) := by
  rw [decodeBody, if_neg h.asymm, if_pos ⟨hstrict, h⟩]

/-- A longer body is taken unless lengths are strict (R180). -/
theorem decodeBody_accepted (hle : c.shapeLenOf shape ≤ body.length)
    (hstrict : c.strictLength = true → body.length = c.shapeLenOf shape) :
    decodeBody c op shape body = .ok (decodeShape c op shape body) := by
  have hnotLong : ¬ (c.strictLength = true ∧ c.shapeLenOf shape < body.length) :=
    fun ⟨hs, hlt⟩ => hlt.ne' (hstrict hs)
  rw [decodeBody, if_neg hle.not_gt, if_neg hnotLong]

end Envelope

end Sys2Proof

namespace Sys2Proof.Machine

/-! ## A request on its way out (R162, R167, R211) -/

/-- A request whose write and flush are not under way is encoded and framed. -/
theorem exec_request_of_notSending {r : Request} {s : State} (hr : r ≠ .getHardwareVersion) (h : notSending s) :
    exec r.toInstr s = .next (sendEncode r s) := by
  obtain ⟨hwrite, hflush⟩ := h
  obtain ⟨rfl, -⟩ | ⟨-, hexec⟩ := exec_request r s
  · exact absurd rfl hr
  · rw [hexec, sendStep_start _ r s hwrite hflush]

/-- Settles O14: each clause is the encoding of its own request, whose message is that of `encReq`. -/
theorem requestsFillScratchBuffer : Obligations.RequestsFillScratchBuffer := by
  refine fun s => ⟨rfl, fun h => ?_⟩
  have hexec : ∀ r : Request, r ≠ .getHardwareVersion → exec r.toInstr s = .next (sendEncode r s) :=
    fun r hr => exec_request_of_notSending hr h
  exact ⟨hexec .getProtocolVersion nofun, hexec (.selectObject .command) nofun, hexec (.selectObject .data) nofun,
    fun n => hexec (.createObject .command n) nofun, fun n => hexec (.createObject .data n) nofun,
    fun n => hexec (.setReceiptNotification n) nofun, hexec .getMtu nofun,
    fun d => hexec (.writeChunk d) nofun, hexec .getCrc nofun, hexec .execute nofun⟩

/-- The flush of a chunk is answered: STREAM goes on with the fragment (R268). -/
theorem sendChunk_flush {s : State} {d : Bytes} {r : Request} {rest : List TxResult} (hp : s.phase = .flush r)
    (htx : s.tx = .ok :: rest) : sendChunk d s = setPhase (.sent d) (logFlush .flushed rest s) := by
  rw [sendChunk, sendStep_flush _ _ r _ hp]
  simp only [txFlush, htx]

/-- Settles O17: the flush is marked and the fragment handed on; no wait begins. -/
theorem flushedChunkIsNotAwaited : Obligations.FlushedChunkIsNotAwaited := fun _ _ _ hp htx =>
  congrArg Host.Outcome.next (sendChunk_flush hp htx)

/-! ## PARSE_RESPONSE on the machine (R171, R178) -/

theorem exec_rspRejected (echo raw : Byte) (s : State) :
    exec (.rspRejected echo raw) s = .next (raise (.deviceRejection raw (s.cfg.resName raw)) s) := rfl

/-- Settles O21: a rejection is an abort, which writes these fields only (R312). -/
theorem rejectedResponseAborts : Obligations.RejectedResponseAborts := fun s echo raw =>
  exec_rspRejected echo raw s

/-- A payload that is no response row raises the error of the check it fails. -/
theorem step_parse_error {s : State} {k : ErrKind} (hrun : halted s = false) (hp : s.phase = .parse)
    (h : decodeResponse s.cfg s.outOp s.outShape s.rxBuf = .error k) : step s = .next (raise k s) := by
  rw [step_of_running hrun, runPhase_parse hp]
  simp only [parseStep, h]

/-- Settles O22: a step that parses does what the decoder of responses answers, check by check. -/
theorem envelopeChecksInOrder : Obligations.EnvelopeChecksInOrder := by
  intro s hp hrun
  have herror : ∀ {k}, decodeResponse s.cfg s.outOp s.outShape s.rxBuf = .error k → step s = .next (raise k s) :=
    step_parse_error hrun hp
  have hrow : ∀ {i}, decodeResponse s.cfg s.outOp s.outShape s.rxBuf = .ok i → step s = exec i s :=
    step_parse hrun hp
  refine ⟨fun hrx => ?empty, fun p0 t hrx h0 => ?opcode, fun hrx => ?opcodeOnly, fun p1 t hrx h1 => ?echo,
    fun hrx => ?echoOnly, fun p2 t hrx h2 => ?result, fun body hrx => ?body⟩
  case empty => exact herror (hrx ▸ decodeResponse_nil ..)
  case opcode => exact herror (hrx ▸ decodeResponse_badOpcode _ _ _ h0 t)
  case opcodeOnly => exact herror (hrx ▸ decodeResponse_opcodeOnly ..)
  case echo => exact herror (hrx ▸ decodeResponse_echoMismatch _ _ _ h1 t)
  case echoOnly => exact herror (hrx ▸ decodeResponse_echoOnly ..)
  case result =>
    rw [hrow (hrx ▸ decodeResponse_rejected _ _ _ h2 t), exec_rspRejected]
  case body =>
    have hdec : decodeResponse s.cfg s.outOp s.outShape s.rxBuf = decodeBody s.cfg s.outOp s.outShape body :=
      hrx ▸ decodeResponse_successEnvelope s.cfg s.outOp s.outShape body
    exact ⟨fun hshort => herror (hdec.trans (decodeBody_short _ hshort)),
      fun hstrict hlong => herror (hdec.trans (decodeBody_long _ hstrict hlong)),
      fun hle hstrict => hrow (hdec.trans (decodeBody_accepted _ hle hstrict))⟩

end Sys2Proof.Machine
end

section
/-! PROOFS. The transport channel: what one write or flush of a request does for each answer of the stream, and the
blocked engine. -/

namespace Sys2Proof.Machine

/-! ## TxWrite and TxFlush, by the stream's answer (R211, R217, R303) -/

theorem txWrite_blocked {s : State} (htx : s.tx = []) (r : Request) : txWrite r s = s := by
  simp only [txWrite, htx]

/-- The whole of `tx_buf` reaches the log. -/
theorem txWrite_ok {s : State} {rest : List TxResult} (htx : s.tx = .ok :: rest) (r : Request) :
    txWrite r s = { s with tx := rest, txLog := s.txLog ++ s.txBuf.map TxMark.byte, phase := .flush r } := by
  simp only [txWrite, htx, logWrite, List.take_length, setPhase]

theorem txWrite_ioErr {s : State} {n : Nat} {rest : List TxResult} (htx : s.tx = .ioErr n :: rest) (r : Request) :
    txWrite r s = raise (.transport .write) (logWrite n rest s) := by
  simp only [txWrite, htx]

theorem txFlush_blocked {s : State} (htx : s.tx = []) (after : State → State) : txFlush after s = s := by
  simp only [txFlush, htx]

/-- What would follow the flush is not reached. -/
theorem txFlush_ioErr {s : State} {n : Nat} {rest : List TxResult} (htx : s.tx = .ioErr n :: rest)
    (after : State → State) : txFlush after s = raise (.transport .flush) (logFlush .flushFailed rest s) := by
  simp only [txFlush, htx]

/-! ## The write and the flush of a request that is sent (R162, R211) -/

theorem exec_sent {r : Request} (hr : r ≠ .getHardwareVersion) (s : State) :
    ∃ after, exec r.toInstr s = .next (sendStep after r s) := by
  obtain ⟨hversion, -⟩ | ⟨-, hexec⟩ := exec_request r s
  · exact absurd hversion hr
  · exact ⟨_, hexec⟩

theorem exec_write {s : State} {r q : Request} (hr : r ≠ .getHardwareVersion) (hp : s.phase = .write q) :
    exec r.toInstr s = .next (txWrite r s) := by
  obtain ⟨after, hexec⟩ := exec_sent hr s
  rw [hexec, sendStep_write _ _ q _ hp]

theorem exec_flush {s : State} {r q : Request} (hr : r ≠ .getHardwareVersion) (hp : s.phase = .flush q) :
    ∃ after, exec r.toInstr s = .next (txFlush after s) := by
  obtain ⟨after, hexec⟩ := exec_sent hr s
  exact ⟨after, by rw [hexec, sendStep_flush _ _ q _ hp]⟩

/-- Settles O15: the request is at its write, which the stream takes or fails. -/
theorem framedRequestIsWritten : Obligations.FramedRequestIsWritten := by
  intro s r hp hr
  rw [exec_write hr hp]
  refine ⟨fun rest htx => ?taken, fun n rest htx => ?failed⟩
  case taken => rw [txWrite_ok htx]
  case failed => rw [txWrite_ioErr htx, logWrite]

/-- Settles O18: the request is at its flush, which the stream fails. -/
theorem failedFlushAborts : Obligations.FailedFlushAborts := by
  intro s r n rest hp hr htx
  obtain ⟨after, hexec⟩ := exec_flush hr hp
  rw [hexec, txFlush_ioErr htx, logFlush]

/-! ## The blocked engine (R217, R374) -/

theorem step_of_halted {s : State} (h : halted s = true) : step s = .next s := if_pos h

theorem recvStep_blocked {s : State} (hrx : s.rx = []) : recvStep s = .next s := by
  simp only [recvStep, hrx]

/-- A request's write and flush both wait for the stream's answer. -/
theorem exec_request_blocked {s : State} {r : Request} (hr : r ≠ .getHardwareVersion)
    (hp : s.phase = .write r ∨ s.phase = .flush r) (htx : s.tx = []) : exec r.toInstr s = .next s := by
  rcases hp with hwrite | hflush
  · rw [exec_write hr hwrite, txWrite_blocked htx]
  · obtain ⟨after, hexec⟩ := exec_flush hr hflush
    rw [hexec, txFlush_blocked htx]

/-- Settles O19: a halted engine stays where it is in any case; a running one is at a read, a write or a flush, and
each waits. -/
theorem silentStreamBlocks : Obligations.SilentStreamBlocks := by
  intro s hsilent
  cases hrun : halted s with
  | true => exact step_of_halted hrun
  | false =>
    obtain ⟨hp, hrx⟩ | ⟨r, hr, hp, htx⟩ := hsilent
    · rw [step_recv hrun hp, recvStep_blocked hrx]
    · rw [step_of_running hrun, runPhase_request (.inr hp), exec_request_blocked hr hp htx]

end Sys2Proof.Machine
end

section
/-! PROOFS. The CRC accumulator: its algorithm, that one changed byte changes it, and STREAM, which feeds it every byte
it sends. -/

namespace Sys2Proof.Machine

/-! ## The CRC byte by byte (R230, R234, R235) -/

theorem crc32_cons (c : Config) (b : Byte) (data : Bytes) (s : U32) :
    crc32 c (b :: data) s = crc32 c data (crcStep c s b) := rfl

/-- Settles O11, by induction on the data: the sequence from its second element on is that of the data's tail. -/
theorem crcIsIteratedStep : Obligations.CrcIsIteratedStep := by
  intro c data
  induction data with
  | nil =>
    intro s d hseed _
    exact hseed.symm
  | cons b data ih =>
    intro s d hseed hnext
    have hfirst : d 1 = crcStep c s b := hseed ▸ hnext 0 (Nat.zero_lt_succ _)
    exact ih (crcStep c s b) (fun i => d (i + 1)) hfirst fun i hi => hnext (i + 1) (Nat.succ_lt_succ hi)

/-- Settles O12: the loaded seed is the accumulator that the bytes meet. -/
theorem serialCrcComputesCrc32 : Obligations.SerialCrcComputesCrc32 := fun s v data =>
  crcBytes_eq data (crcLoad v s)

/-! ## No two registers and no two bytes are confused (R233) -/

/-- The polynomial has its top bit set, so the top bit after a shift is the bit that was shifted out. -/
theorem crcShift_top (r : U32) : (crcShift r).getLsbD 31 = r.getLsbD 0 := by
  unfold crcShift
  split <;> simp_all

/-- The bit shifted out is seen in the result, and so are the others once the polynomial is taken off. -/
theorem crcShift_injective : Function.Injective crcShift := by
  intro r q h
  have hlow : r.getLsbD 0 = q.getLsbD 0 := by rw [← crcShift_top r, h, crcShift_top q]
  have hhigh : r >>> 1 = q >>> 1 := by
    unfold crcShift at h
    rw [hlow] at h
    split at h
    · exact (BitVec.xor_left_inj _).mp h
    · exact h
  have hhalf : r.toNat / 2 = q.toNat / 2 := by simpa [Nat.shiftRight_eq_div_pow] using congrArg BitVec.toNat hhigh
  have hbit : r.toNat % 2 = 1 ↔ q.toNat % 2 = 1 := by simpa [BitVec.getLsbD, Nat.testBit_zero] using hlow
  exact BitVec.eq_of_toNat_eq (by omega)

theorem crcStepIeee_eq_iff {s s' : U32} {b b' : Byte} :
    crcStepIeee s b = crcStepIeee s' b' ↔
      s ^^^ 0xFFFFFFFF ^^^ b.setWidth 32 = s' ^^^ 0xFFFFFFFF ^^^ b'.setWidth 32 := by
  rw [crcStepIeee, crcStepIeee, BitVec.xor_left_inj, (crcShift_injective.iterate 8).eq_iff]

/-- Distinct states stay distinct under the same byte. -/
theorem crcStepIeee_injective_state (b : Byte) : Function.Injective (crcStepIeee · b) := fun s s' h => by
  have hmixed := crcStepIeee_eq_iff.mp h
  rwa [BitVec.xor_left_inj, BitVec.xor_left_inj] at hmixed

/-- Distinct bytes lead the same state to distinct ones. -/
theorem crcStepIeee_injective_byte (s : U32) : Function.Injective (crcStepIeee s) := fun b b' h => by
  have hmixed := crcStepIeee_eq_iff.mp h
  rw [BitVec.xor_right_inj] at hmixed
  have hnat := congrArg BitVec.toNat hmixed
  have := b.isLt
  have := b'.isLt
  simp only [BitVec.toNat_setWidth] at hnat
  exact BitVec.eq_of_toNat_eq (by omega)

theorem crcStep_ieee {c : Config} (h : c.crc = .ieee) : crcStep c = crcStepIeee := by
  funext s b
  simp only [crcStep, h]

/-- The same bytes keep distinct seeds apart. -/
theorem crc32_injective_seed {c : Config} (h : c.crc = .ieee) (data : Bytes) : Function.Injective (crc32 c data) := by
  induction data with
  | nil => exact fun _ _ heq => heq
  | cons b data ih =>
    intro s s' heq
    rw [crc32_cons, crc32_cons, crcStep_ieee h] at heq
    exact crcStepIeee_injective_state b (ih heq)

/-- Settles O13: the byte that differs makes the states differ, and what follows it keeps them apart. -/
theorem oneByteChangeChangesCrc : Obligations.OneByteChangeChangesCrc := by
  intro c pre post b b' s hieee hne heq
  rw [crc32_append, crc32_append, crc32_cons, crc32_cons, crcStep_ieee hieee] at heq
  exact hne (crcStepIeee_injective_byte _ (crc32_injective_seed hieee post heq))

/-! ## The greedy split (R268, R273) -/

theorem fragmentsUpTo_nil (k fuel : Nat) : fragmentsUpTo k fuel [] = [] := by
  cases fuel <;> rfl

theorem fragmentsUpTo_succ {d : Bytes} (hd : d ≠ []) (k fuel : Nat) :
    fragmentsUpTo k (fuel + 1) d = d.take k :: fragmentsUpTo k fuel (d.drop k) := if_neg hd

/-- Fuel for every byte is fuel enough: each fragment takes one at least. -/
theorem fragmentsUpTo_congr {k : Nat} (hk : 0 < k) {m n : Nat} {d : Bytes} (hm : d.length ≤ m) (hn : d.length ≤ n) :
    fragmentsUpTo k m d = fragmentsUpTo k n d := by
  induction m generalizing n d with
  | zero => rw [List.length_eq_zero_iff.mp (Nat.le_zero.mp hm), fragmentsUpTo_nil, fragmentsUpTo_nil]
  | succ m ih =>
    by_cases hd : d = []
    · rw [hd, fragmentsUpTo_nil, fragmentsUpTo_nil]
    · have hpos := List.length_pos_iff.mpr hd
      obtain ⟨n, rfl⟩ := Nat.exists_eq_add_one.mpr (hpos.trans_le hn)
      have hdrop : (d.drop k).length = d.length - k := List.length_drop
      rw [fragmentsUpTo_succ hd, fragmentsUpTo_succ hd, ih (n := n) (by omega) (by omega)]

/-- The first fragment is as many bytes as the bound allows; the others split what is left. -/
theorem fragments_of_ne_nil {k : Nat} (hk : 0 < k) {d : Bytes} (hd : d ≠ []) :
    fragments k d = d.take k :: fragments k (d.drop k) := by
  have hpos := List.length_pos_iff.mpr hd
  obtain ⟨fuel, hfuel⟩ := Nat.exists_eq_add_one.mpr hpos
  have hrest : (d.drop k).length ≤ fuel := by rw [List.length_drop]; omega
  rw [fragments, hfuel, fragmentsUpTo_succ hd, fragments, fragmentsUpTo_congr hk hrest le_rfl]

/-! ## Reading part of what can be read (R63) -/

/-- A read of at most `k` bytes takes the first `k` or all there are, and a read from there on takes the others. -/
theorem memRead_split {s : State} {space : Space} {a n : Nat} {d : Bytes} (h : memRead s space a n = some d) (k : Nat) :
    memRead s space a (min k n) = some (d.take k) ∧
      memRead s space (a + min k n) (n - min k n) = some (d.drop k) := by
  obtain ⟨hle, rfl, -⟩ := memRead_some h
  rw [memRead_of_le (by omega), memRead_of_le (by omega), List.take_take, List.drop_take, List.drop_drop]
  rcases le_total k n with hk | hk
  · rw [Nat.min_eq_left hk]
    exact ⟨rfl, rfl⟩
  · rw [Nat.min_eq_right hk, Nat.sub_self, Nat.sub_eq_zero_of_le hk, List.take_zero, List.take_zero]
    exact ⟨rfl, rfl⟩

/-! ## One fragment of STREAM (R268) -/

/-- STREAM back at its loop test with one more fragment `f` sent, fed to the CRC and passed by the pointer. -/
def fragmentSent (f : Bytes) (txRest : List TxResult) (s : State) : State :=
  { s with
    txBuf := frame s.cfg (encReq s.cfg (.writeChunk f)), tx := txRest,
    txLog := s.txLog ++ sentMarks s.cfg (.writeChunk f), crcAcc := crc32 s.cfg f s.crcAcc,
    strPtr := s.strPtr + BitVec.ofNat 32 f.length }

theorem runPhase_stream {s : State} (h : s.phase = .stream) : runPhase s = streamStep s := by
  simp only [runPhase, h]

theorem runPhase_sent {s : State} {f : Bytes} (h : s.phase = .sent f) : runPhase s = .next (fragDone f s) := by
  simp only [runPhase, h]

theorem step_sendChunk {s : State} {f : Bytes} (hrun : halted s = false)
    (hp : s.phase = .send (.writeChunk f) ∨ s.phase = .write (.writeChunk f) ∨ s.phase = .flush (.writeChunk f)) :
    step s = .next (sendChunk f s) := by
  rw [step_of_running hrun, runPhase_request hp]
  rfl

theorem step_chunkEncode {s : State} {f : Bytes} (hrun : halted s = false) (hp : s.phase = .send (.writeChunk f)) :
    step s = .next (sendEncode (.writeChunk f) s) := by
  rw [step_sendChunk hrun (.inl hp), sendChunk, sendStep_start _ _ s (by simp [hp]) (by simp [hp])]

theorem step_chunkWrite {s : State} {f : Bytes} {rest : List TxResult} (hrun : halted s = false)
    (hp : s.phase = .write (.writeChunk f)) (htx : s.tx = .ok :: rest) :
    step s = .next { s with
      tx := rest, txLog := s.txLog ++ s.txBuf.map TxMark.byte, phase := .flush (.writeChunk f) } := by
  rw [step_sendChunk hrun (.inr (.inl hp)), sendChunk, sendStep_write _ _ _ _ hp, txWrite_ok htx]

theorem step_chunkFlush {s : State} {f : Bytes} {rest : List TxResult} (hrun : halted s = false)
    (hp : s.phase = .flush (.writeChunk f)) (htx : s.tx = .ok :: rest) :
    step s = .next (setPhase (.sent f) (logFlush .flushed rest s)) := by
  rw [step_sendChunk hrun (.inr (.inr hp)), sendChunk_flush hp htx]

/-- The chunk in hand is encoded, written and flushed, and no answer is awaited (R167). -/
theorem run_sendChunk {s : State} {f : Bytes} {txRest : List TxResult} (hrun : halted s = false)
    (hp : s.phase = .send (.writeChunk f)) (htx : s.tx = .ok :: .ok :: txRest) :
    run 3 s = .next { s with
      txBuf := frame s.cfg (encReq s.cfg (.writeChunk f)), tx := txRest,
      txLog := s.txLog ++ sentMarks s.cfg (.writeChunk f), phase := .sent f } := by
  have hwrite := step_chunkWrite (s := sendEncode (.writeChunk f) s) hrun rfl htx
  rw [run_succ_of_step (step_chunkEncode hrun hp), run_succ_of_step hwrite, run_one]
  refine Eq.trans (step_chunkFlush hrun rfl rfl) ?_
  rw [sentMarks, ← List.append_assoc]
  rfl

/-- A fragment of STREAM takes five steps: it is read, encoded, written and flushed, and its CRC and the pointer are
brought up to date. -/
theorem run_fragment {s : State} {f : Bytes} {txRest : List TxResult} (hrun : halted s = false)
    (hp : s.phase = .stream) (hlt : s.strPtr.toNat < s.strLen.toNat)
    (hf : memRead s s.strSpace (s.strBase.toNat + s.strPtr.toNat) (fragLengthOf s) = some f)
    (htx : s.tx = .ok :: .ok :: txRest) : run 5 s = .next (fragmentSent f txRest s) := by
  have hread : step s = .next (begin (.writeChunk f) s) := by
    rw [step_of_running hrun, runPhase_stream hp, streamStep_fragment hlt hf]
  have hsend := run_sendChunk (s := begin (.writeChunk f) s) hrun rfl htx
  rw [run_succ_of_step hread, run_add hsend 1, run_one]
  refine Eq.trans (step_of_running hrun) (Eq.trans (runPhase_sent rfl) ?_)
  rw [fragDone_eq, fragmentSent, ← hp]
  rfl

/-- The pointer passes the fragment and does not wrap. -/
theorem fragmentSent_strPtr {s : State} {f : Bytes} (hlt : s.strPtr.toNat < s.strLen.toNat)
    (hlen : f.length = fragLengthOf s) (txRest : List TxResult) :
    (fragmentSent f txRest s).strPtr.toNat = s.strPtr.toNat + fragLengthOf s := by
  have hle := strPtr_add_fragLengthOf_le hlt
  have := s.strLen.isLt
  rw [fragmentSent, BitVec.toNat_add, BitVec.toNat_ofNat, hlen]
  omega

/-! ## The loop of STREAM (R268) -/

/-- With bytes left, five steps send the first of the greedy fragments, and what can be read from there on is the bytes
after it. -/
theorem run_firstFragment {s : State} {d : Bytes} {txRest : List TxResult} (hrun : halted s = false)
    (hp : s.phase = .stream) (hlt : s.strPtr.toNat < s.strLen.toNat)
    (hread : memRead s s.strSpace (s.strBase.toNat + s.strPtr.toNat) (s.strLen.toNat - s.strPtr.toNat) = some d)
    (htx : s.tx = .ok :: .ok :: txRest) :
    ∃ t, t = fragmentSent (d.take s.fragMax.toNat) txRest s ∧ run 5 s = .next t ∧ t.strPtr.toNat ≤ t.strLen.toNat ∧
      memRead t t.strSpace (t.strBase.toNat + t.strPtr.toNat) (t.strLen.toNat - t.strPtr.toNat) =
        some (d.drop s.fragMax.toNat) := by
  obtain ⟨hfirst, hothers⟩ := memRead_split hread s.fragMax.toNat
  obtain ⟨-, -, hlen⟩ := memRead_some hfirst
  have hptr := fragmentSent_strPtr hlt hlen txRest
  refine ⟨_, rfl, run_fragment hrun hp hlt hfirst htx, ?inside, ?remaining⟩
  case inside =>
    rw [hptr]
    exact strPtr_add_fragLengthOf_le hlt
  case remaining =>
    rw [hptr, ← Nat.add_assoc, ← Nat.sub_sub]
    exact hothers

theorem not_halted_of_stream {s : State} (hu : s.upc = .m6 ∨ s.upc = .m11) : halted s = false := by
  rcases hu with hu | hu <;> simp [halted, hu]

/-- The pointer at the end: the next microprogram step begins (R258, R263). -/
theorem step_streamEnd {s : State} (hu : s.upc = .m6 ∨ s.upc = .m11) (hp : s.phase = .stream)
    (hend : s.strPtr = s.strLen) :
    step s = .next (goTo s.seq (if s.upc = .m6 then .m7 else .m12) s) := by
  rw [step_of_running (not_halted_of_stream hu), runPhase_stream hp, streamStep_done (by simp [hend])]
  rcases hu with hu | hu <;> simp [endStream, hu]

/-- Settles O42, by induction on the number of bytes left: with none STREAM is over, and otherwise its first fragment
leaves the stream of the bytes after it. -/
theorem streamSendsEveryFragment : Obligations.StreamSendsEveryFragment := by
  intro s d
  induction hn : d.length using Nat.strong_induction_on generalizing s d with | _ n ih
  intro rest hu hp hmax hptr hread htx
  obtain ⟨-, -, hcount⟩ := memRead_some hread
  by_cases hd : d = []
  case pos =>
    subst hd
    rw [List.length_nil] at hcount
    have hend : s.strPtr = s.strLen := BitVec.eq_of_toNat_eq (by omega)
    exact ⟨_, (run_one s).trans (step_streamEnd hu hp hend), rfl, rfl, rfl, hend, rfl, htx, rfl, rfl,
      (List.append_nil _).symm⟩
  case neg =>
    have hpos := List.length_pos_iff.mpr hd
    have hrun : halted s = false := not_halted_of_stream hu
    have hleft : (d.drop s.fragMax.toNat).length < n := by rw [List.length_drop]; omega
    rw [fragments_of_ne_nil (by omega) hd] at htx ⊢
    obtain ⟨u, hsent, hfrag, hinside, hremaining⟩ := run_firstFragment hrun hp (by omega) hread htx
    obtain ⟨t, hloop, hphase, hupc, hseq, hend, hcrc, htxEnd, hrx, hawait, hlog⟩ :=
      ih _ hleft u _ rfl rest (hsent ▸ hu) (hsent ▸ hp) (hsent ▸ hmax) hinside hremaining (hsent ▸ rfl)
    subst hsent
    refine ⟨t, ?run, hphase, hupc, hseq, hend, ?crc, htxEnd, hrx, hawait, ?log⟩
    case run =>
      rw [List.length_cons, Nat.mul_succ, Nat.add_right_comm, Nat.add_comm, run_add hfrag]
      exact hloop
    case crc => rw [hcrc, fragmentSent, ← crc32_append, List.take_append_drop]
    case log => rw [hlog, fragmentSent, List.flatMap_cons, List.append_assoc]

end Sys2Proof.Machine
end

section
/-! PROOFS. The session sequencer: what each microprogram step does at its beginning and with its response, the bounds
of a fragment, the CRC check before each Execute, and the response members that nothing reads. -/

namespace Sys2Proof.Machine

/-! ## The bound of a fragment (R269, R270, R271) -/

/-- Settles O39: `mtu` is below 2^16; the listed values are computed. -/
theorem fragMaxRange : Obligations.FragMaxRange := by
  refine ⟨fun mtu => ⟨rfl, fragMaxOf_lt_one mtu, ?low, ?high⟩, by decide⟩
  case low =>
    unfold fragMaxOf
    omega
  case high =>
    have := mtu.isLt
    unfold fragMaxOf
    omega

theorem length_encReq_writeChunk (c : Config) (d : Bytes) : (encReq c (.writeChunk d)).length = d.length + 1 := by
  rw [encReq, List.length_append, List.length_singleton, Nat.add_comm]

/-- The longest frame of `k + 1` message bytes escapes them all (R92). -/
theorem length_frame_writeChunk_le (c : Config) (d : Bytes) :
    (frame c (encReq c (.writeChunk d))).length ≤ 2 * d.length + 3 := by
  obtain ⟨-, -, hle⟩ := frameLengthCountsEscapes c (encReq c (.writeChunk d))
  rw [length_encReq_writeChunk] at hle
  omega

/-- Settles O40: `frag_max` is chosen so that `2k + 3` is at most `mtu`, and `2k + 3` is odd. -/
theorem chunkFrameFitsMtu : Obligations.ChunkFrameFitsMtu := by
  intro c d
  have hframe := length_frame_writeChunk_le c d
  refine ⟨length_encReq_writeChunk c d, hframe, fun mtu hd => ?_⟩
  have hbound : 2 * d.length + 3 ≤ mtu.toNat := by
    unfold fragMaxOf at hd
    omega
  exact ⟨hframe.trans hbound, fun heven => by omega⟩

/-! ## The greedy split (R268, R273) -/

/-- Induction along the split: what holds of no bytes, and of bytes if it holds of those after the first fragment, holds
of all. -/
theorem fragments_induction {k : Nat} (hk : 0 < k) {motive : Bytes → Prop} (nil : motive [])
    (more : ∀ d, d ≠ [] → motive (d.drop k) → motive d) (d : Bytes) : motive d := by
  induction hn : d.length using Nat.strong_induction_on generalizing d with | _ n ih
  by_cases hd : d = []
  · exact hd ▸ nil
  · have hpos := List.length_pos_iff.mpr hd
    exact more d hd (ih _ (by rw [List.length_drop]; omega) _ rfl)

theorem fragments_nil (k : Nat) : fragments k [] = [] := rfl

theorem flatten_fragments {k : Nat} (hk : 0 < k) (d : Bytes) : (fragments k d).flatten = d := by
  induction d using fragments_induction hk with
  | nil => rfl
  | more d hd ih => rw [fragments_of_ne_nil hk hd, List.flatten_cons, ih, List.take_append_drop]

theorem length_of_mem_fragments {k : Nat} (hk : 0 < k) (d : Bytes) :
    ∀ f ∈ fragments k d, 1 ≤ f.length ∧ f.length ≤ k := by
  induction d using fragments_induction hk with
  | nil => simp [fragments_nil]
  | more d hd ih =>
    have hpos := List.length_pos_iff.mpr hd
    rw [fragments_of_ne_nil hk hd, List.forall_mem_cons, List.length_take]
    exact ⟨by omega, ih⟩

theorem length_fragments {k : Nat} (hk : 0 < k) (d : Bytes) :
    (fragments k d).length = (d.length + k - 1) / k := by
  induction d using fragments_induction hk with
  | nil => exact (Nat.div_eq_of_lt (by rw [List.length_nil]; omega)).symm
  | more d hd ih =>
    have hpos := List.length_pos_iff.mpr hd
    rw [fragments_of_ne_nil hk hd, List.length_cons, ih, List.length_drop]
    rcases le_total d.length k with hle | hle
    · rw [Nat.sub_eq_zero_of_le hle, Nat.zero_add, Nat.div_eq_of_lt (Nat.sub_lt hk Nat.one_pos),
        Nat.div_eq_of_lt_le (k := 1) (by omega) (by omega)]
    · rw [← Nat.add_div_right _ hk]
      congr 1
      omega

/-- Settles O41: the three facts are read off along the split. -/
theorem fragmentsCoverStream : Obligations.FragmentsCoverStream := fun _ d hk =>
  ⟨flatten_fragments hk d, length_of_mem_fragments hk d, length_fragments hk d⟩

/-! ## The CRC check before each Execute (R259, R264) -/

/-- M7 and M12 are left on success only with the CRC that the device reports equal to the accumulator. -/
theorem StepTo.crc_eq {s t : State} (h : StepTo s t) (hs : s.upc = .m7 ∨ s.upc = .m12) (hleft : t.upc ≠ s.upc)
    (hmf : t.upc ≠ .mf) : s.rsp.crc.crc = s.crcAcc := by
  cases h
  case datCrcOk hcrc => exact hcrc
  case binCrcOk hcrc => exact hcrc
  case start hu _ _ _ | noChunkLeft hu _ | streamEndDat hu | streamEndBin hu | versionOk hu _ | mtu hu |
      negotiated hu | datSelected hu | datCreated hu | datExecuted hu | binSelected hu _ | binCreated hu |
      binExecuted hu =>
    simp [hu] at hs
  case startTooLong | openDatSmallMtu | openBinSmallMtu | writeFailed | flushFailed | recvEof | recvTimeout |
      recvIoErr | recvOverflow | recvBadEscape | parseError | parseRejected | versionMismatch | maxSizeZero |
      crcMismatch =>
    exact absurd rfl hmf
  all_goals exact absurd rfl hleft

/-- Settles O54: the check compares the reported CRC with the accumulator, which covers the bytes streamed. -/
theorem executeOnlyAfterVerifiedCrc : Obligations.ExecuteOnlyAfterVerifiedCrc := by
  intro s t hinv hstep
  have hcheck (hs : s.upc = .m7 ∨ s.upc = .m12) (hleft : t.upc ≠ s.upc) (hmf : t.upc ≠ .mf) :
      s.rsp.crc.crc = s.crcAcc := by
    rcases step_next hstep with ⟨-, rfl⟩ | ⟨-, hst⟩
    · exact absurd rfl hleft
    · exact hst.crc_eq hs hleft hmf
  refine ⟨fun hs ht => ?dat, fun hs ht => ?bin⟩
  case dat => rw [hcheck (.inl hs) (by simp [hs, ht]) (by simp [ht]), hinv.crc.datDone hs]
  case bin => rw [hcheck (.inr hs) (by simp [hs, ht]) (by simp [ht]), hinv.crc.chunkDone (.inl hs)]

/-! ## The halt states (R252, R266) -/

theorem hostStart_ignored {s : State} (hu : s.upc ≠ .m0) (i f : Bytes) : hostStart i f s = s :=
  if_neg fun h => hu h.1

/-- Settles O32: neither halt state is M0. -/
theorem haltedEngineDoesNothing : Obligations.HaltedEngineDoesNothing := by
  rintro s (hu | hu) <;> exact ⟨step_of_halted (by simp [halted, hu]), hostStart_ignored (by simp [hu])⟩

/-! ## The beginning and the end of a microprogram step -/

theorem halted_eq_false_of_upc {s : State} {u : Upc} (hu : s.upc = u) (hrun : u ≠ .m14 ∧ u ≠ .mf) :
    halted s = false :=
  (halted_eq_false s).mpr (hu ▸ hrun)

theorem step_enter {s : State} {u : Upc} (hp : s.phase = .enter) (hu : s.upc = u)
    (hrun : u ≠ .m14 ∧ u ≠ .mf := by decide) : step s = .next (enterStep s) := by
  rw [step_of_running (halted_eq_false_of_upc hu hrun), runPhase, hp]

theorem step_finish {s : State} {u : Upc} (hp : s.phase = .finish) (hu : s.upc = u)
    (hrun : u ≠ .m14 ∧ u ≠ .mf := by decide) : step s = .next (finishStep s) := by
  rw [step_of_running (halted_eq_false_of_upc hu hrun), runPhase, hp]

/-! ## M0 (R251, R252) -/

theorem paddedLength_of_pos {c : Config} (h : 0 < c.padAlign) (n : Nat) :
    paddedLength c n = (n + c.padAlign - 1) / c.padAlign * c.padAlign := if_neg h.ne'

theorem latchLength_of_lt {n : Nat} (h : n < 2 ^ 32) : latchLength n = BitVec.ofNat 32 n := if_pos h

theorem step_noCommand {s : State} (hp : s.phase = .enter) (hu : s.upc = .m0) (hcmd : s.cmd = none) :
    step s = .next s := by
  rw [step_enter hp hu]
  simp only [enterStep, hu, hcmd]

theorem step_command {s : State} {c : StartCmd} (hp : s.phase = .enter) (hu : s.upc = .m0) (hcmd : s.cmd = some c) :
    step s = .next (takeStart c s) := by
  rw [step_enter hp hu]
  simp only [enterStep, hu, hcmd]

/-- A `Start` whose lengths fit is latched as it is, since the padded length is not below the image's. -/
theorem takeStart_fits {s : State} {c : StartCmd} (halign : 0 < s.cfg.padAlign) (hinit : c.initBytes.length < 2 ^ 32)
    (hfw : paddedLength s.cfg c.fwBytes.length < 2 ^ 32) :
    takeStart c s = { s with
      cmd := none, initMem := c.initBytes, fwMem := c.fwBytes, initLen := BitVec.ofNat 32 c.initBytes.length,
      fwLen := BitVec.ofNat 32 c.fwBytes.length,
      fwPlen := BitVec.ofNat 32 (paddedLength s.cfg c.fwBytes.length),
      seq := .connecting, upc := .m1, phase := .enter } := by
  have hle := le_paddedLength halign c.fwBytes.length
  rw [takeStart, if_pos ⟨hinit, hfw⟩, goTo, latchStart, latchLength_of_lt hinit, latchLength_of_lt hfw,
    latchLength_of_lt (hle.trans_lt hfw)]

theorem takeStart_tooLong {s : State} {c : StartCmd}
    (h : 2 ^ 32 ≤ c.initBytes.length ∨ 2 ^ 32 ≤ paddedLength s.cfg c.fwBytes.length) :
    takeStart c s = raise (.modelFault .lengthTooLarge) (latchStart c s) :=
  if_neg (by omega)

/-- Settles O33: by the pending command and by whether its lengths fit. -/
theorem startIsTakenAtM0 : Obligations.StartIsTakenAtM0 := by
  intro s i f halign
  rw [← paddedLength_of_pos halign]
  refine ⟨fun hu => hostStart_ignored hu i f, fun hu hcmd => if_pos ⟨hu, hcmd⟩,
    fun hu hp hcmd => step_noCommand hp hu hcmd, fun hu hp hcmd => ?_⟩
  rw [step_command hp hu hcmd]
  refine ⟨fun hinit hfw => ?fits, fun hlong => ?tooLong⟩
  case fits => rw [takeStart_fits halign hinit hfw, ← hp]
  case tooLong => exact ⟨_, congrArg _ (takeStart_tooLong hlong), rfl, rfl, rfl, by simp [hu], rfl⟩

/-! ## The steps that exchange (R250) -/

/-- Every step with a request of its own, but for M10 with its test, turns to that request. -/
theorem step_exchange {s : State} {r : Request} (hp : s.phase = .enter) (hr : stepRequest s = some r)
    (h10 : s.upc ≠ .m10) : step s = .next { s with phase := .send r } := by
  obtain ⟨h0, h6, h11, h14, hmf⟩ := upc_of_stepRequest hr
  have hexchange : enterStep s = enterExchange s := by
    unfold enterStep
    split
    case h_1 hu => exact absurd hu h0
    case h_7 hu => exact absurd hu h6
    case h_11 hu => exact absurd hu h10
    case h_12 hu => exact absurd hu h11
    case h_15 hu => exact absurd hu h14
    case h_16 hu => exact absurd hu hmf
    all_goals rfl
  rw [step_enter hp rfl ⟨h14, hmf⟩, hexchange, enterExchange, hr]
  rfl

/-- Settles O34: the table of R250, row by row. -/
theorem stepsTurnToTheirRequests : Obligations.StepsTurnToTheirRequests := by
  intro s hp
  refine ⟨?_, ?_, ?_, ?_, ?_, ?_, ?_, ?_, ?_, ?_⟩ <;> intro hu <;>
    exact step_exchange hp (by simp only [stepRequest, hu]) (by simp [hu])

/-! ## What the steps do with their responses (R253 to R265) -/

theorem checkCrc_equal {s : State} (h : s.rsp.crc.crc = s.crcAcc) (q : Seq) (u : Upc) : checkCrc q u s = goTo q u s :=
  if_neg (not_ne_iff.mpr h)

theorem checkCrc_differs {s : State} (h : s.rsp.crc.crc ≠ s.crcAcc) (q : Seq) (u : Upc) :
    checkCrc q u s = raise (.integrity s.crcAcc s.rsp.crc.crc) s := if_pos h

theorem finishSelectData_some {s : State} (h : s.rsp.sel.maxSize ≠ 0) :
    finishSelectData s = goTo .binSelected .m10 (crcLoad 0 (setFwOff 0 (setMaxSize s.rsp.sel.maxSize s))) := if_neg h

theorem finishSelectData_zero {s : State} (h : s.rsp.sel.maxSize = 0) :
    finishSelectData s = raise (.modelFault .maxSizeZero) (setMaxSize 0 s) := by
  rw [← h]
  exact if_pos h

/-- Settles O35: the row of `finishStep` for each of the three steps. -/
theorem connectStepsFinish : Obligations.ConnectStepsFinish := by
  intro s hp
  refine ⟨fun hu hver => ?version, fun hu hver => ?mismatch, fun hu => ?mtu, fun hu => ?negotiated⟩ <;>
    rw [step_finish hp hu] <;> simp only [finishStep, hu]
  case version => rw [if_neg (not_ne_iff.mpr hver), goTo]
  case mismatch => rw [if_pos hver]
  case mtu => rfl
  case negotiated => rfl

/-- Settles O36: the row of `finishStep` for each of the four steps, and the CRC check at M7. -/
theorem datStepsFinish : Obligations.DatStepsFinish := by
  intro s hp
  refine ⟨fun hu => ?selected, fun hu => ?created, fun hu hcrc => ?checked, fun hu hcrc => ?mismatch,
    fun hu => ?executed⟩ <;> rw [step_finish hp hu] <;> simp only [finishStep, hu]
  case selected | created | executed => rfl
  case checked => rw [checkCrc_equal hcrc, goTo]
  case mismatch => rw [checkCrc_differs hcrc]

theorem finishStep_m9 {s : State} (hu : s.upc = .m9) : finishStep s = finishSelectData s := by
  simp only [finishStep, hu]

/-- The test at the head of M10 with no bytes left (R262). -/
theorem enterStep_noChunkLeft {s : State} (hu : s.upc = .m10) (hend : s.fwOff = s.fwPlen) :
    enterStep s = goTo .done .m14 s := by
  simp only [enterStep, hu, if_pos hend]

/-- The test at the head of M10 with bytes left (R262). -/
theorem enterStep_chunk {s : State} (hu : s.upc = .m10) (hleft : s.fwOff ≠ s.fwPlen) :
    enterStep s = begin (.createObject .data (chunkLengthOf s)) (setChunkLen (chunkLengthOf s) s) := by
  have hreq : stepRequest (setChunkLen (chunkLengthOf s) s) = some (.createObject .data (chunkLengthOf s)) := by
    simp only [stepRequest, setChunkLen_upc, hu]
    rfl
  simp only [enterStep, hu, if_neg hleft, enterExchange, hreq]

/-- Settles O37: the two outcomes of the test at the head of M10, and the row of `finishStep` for each response. -/
theorem binStepsFinish : Obligations.BinStepsFinish := by
  intro s
  refine ⟨fun hp hu hmax => ?selected, fun hp hu hmax => ?zero, fun hp hu hend => ?done, fun hp hu hlt => ?chunk,
    fun hp hu => ?created, fun hp hu hcrc => ?checked, fun hp hu hcrc => ?mismatch, fun hp hu => ?executed⟩
  case done => rw [step_enter hp hu, enterStep_noChunkLeft hu hend, goTo, ← hp]
  case chunk =>
    refine ⟨chunkLengthOf s, chunkLengthOf_toNat hlt.le, ?_⟩
    rw [step_enter hp hu, enterStep_chunk hu fun heq => by simp [heq] at hlt]
    rfl
  all_goals rw [step_finish hp hu]
  case selected =>
    rw [finishStep_m9 hu, finishSelectData_some hmax]
    rfl
  case zero =>
    rw [finishStep_m9 hu, finishSelectData_zero hmax]
    rfl
  all_goals simp only [finishStep, hu]
  case checked => rw [checkCrc_equal hcrc, goTo]
  case mismatch => rw [checkCrc_differs hcrc]
  case created | executed => rfl

/-! ## Opening a stream (R258, R263, R270) -/

theorem beginStream_opens {s : State} (h : 4 < s.mtu.toNat) (space : Space) (base len : U32) :
    beginStream space base len s = setPhase .stream (loadStream space base len s) :=
  if_neg ((fragMaxOf_lt_one s.mtu).not.mpr h.not_ge)

theorem beginStream_faults {s : State} (h : s.mtu.toNat ≤ 4) (space : Space) (base len : U32) :
    beginStream space base len s = raise (.modelFault (.mtuTooSmall s.mtu)) (loadStream space base len s) :=
  if_pos ((fragMaxOf_lt_one s.mtu).mpr h)

theorem enterStep_m6 {s : State} (hu : s.upc = .m6) :
    enterStep s = beginStream .initMem 0 s.initLen (crcLoad 0 (setSeq .datStreaming s)) := by
  simp only [enterStep, hu, openDat]

theorem enterStep_m11 {s : State} (hu : s.upc = .m11) :
    enterStep s = beginStream .fwpad s.fwOff s.chunkLen (setSeq .binStreaming s) := by
  simp only [enterStep, hu, openBin]

/-- Settles O38: by whether `frag_max` is at least 1. -/
theorem streamsOpenOrFault : Obligations.StreamsOpenOrFault := by
  intro s hp
  refine ⟨fun hu hmtu => ?dat, fun hu hmtu => ?bin, ?small⟩
  case dat =>
    rw [step_enter hp hu, enterStep_m6 hu, beginStream_opens (s := crcLoad 0 (setSeq .datStreaming s)) hmtu]
    rfl
  case bin =>
    rw [step_enter hp hu, enterStep_m11 hu, beginStream_opens (s := setSeq .binStreaming s) hmtu]
    rfl
  case small =>
    rintro (hu | hu) hmtu <;> rw [step_enter hp hu]
    · rw [enterStep_m6 hu, beginStream_faults (s := crcLoad 0 (setSeq .datStreaming s)) hmtu]
      exact ⟨_, rfl, rfl, rfl, rfl, rfl⟩
    · rw [enterStep_m11 hu, beginStream_faults (s := setSeq .binStreaming s) hmtu]
      exact ⟨_, rfl, rfl, rfl, rfl, rfl⟩

/-! ## The response members that nothing reads (R267)

`hideUnread` writes no field but `rsp`, and in it none of the four members that are read. So every test of the step
function answers the same before and after it, and each lemma below has only to follow the function's branches. -/

/-- `f` does not see the members that nothing reads: with them hidden it leads to the same state but for them. -/
def overlooksUnread (f : State → State) : Prop := ∀ s, hideUnread (f (hideUnread s)) = hideUnread (f s)

theorem overlooksUnread_ite {p : State → Prop} [DecidablePred p] {f g : State → State}
    (hp : ∀ s, p (hideUnread s) ↔ p s) (hf : overlooksUnread f) (hg : overlooksUnread g) :
    overlooksUnread (fun s => if p s then f s else g s) := fun s => by
  by_cases h : p s
  · simp only [if_pos h, if_pos ((hp s).mpr h), hf s]
  · simp only [if_neg h, if_neg (mt (hp s).mp h), hg s]

theorem txWrite_overlooksUnread (r : Request) : overlooksUnread (txWrite r) := fun s => by
  have htx : (hideUnread s).tx = s.tx := rfl
  unfold txWrite
  rw [htx]
  rcases s.tx with _ | ⟨_ | n, rest⟩ <;> rfl

theorem txFlush_overlooksUnread {after : State → State} (h : overlooksUnread after) :
    overlooksUnread (txFlush after) := fun s => by
  have htx : (hideUnread s).tx = s.tx := rfl
  unfold txFlush
  rw [htx]
  rcases s.tx with _ | ⟨_ | n, rest⟩
  case cons.ok => exact h (logFlush .flushed rest s)
  all_goals rfl

theorem sendStep_overlooksUnread {after : State → State} (h : overlooksUnread after) (r : Request) :
    overlooksUnread (sendStep after r) := fun s => by
  have hphase : (hideUnread s).phase = s.phase := rfl
  unfold sendStep
  rw [hphase]
  cases s.phase
  case write => exact txWrite_overlooksUnread r s
  case flush => exact txFlush_overlooksUnread h s
  all_goals rfl

theorem appendRx_overlooksUnread (b : Byte) {k : State → State} (h : overlooksUnread k) :
    overlooksUnread (appendRx b k) :=
  overlooksUnread_ite (p := fun s => rxFull s = true) (fun _ => Iff.rfl) (fun _ => rfl) fun s => h (pushRx b s)

theorem enterExchange_overlooksUnread : overlooksUnread enterExchange := fun s => by
  have hreq : stepRequest (hideUnread s) = stepRequest s := rfl
  unfold enterExchange
  rw [hreq]
  cases stepRequest s <;> rfl

theorem takeStart_overlooksUnread (c : StartCmd) : overlooksUnread (takeStart c) :=
  overlooksUnread_ite
    (p := fun s => c.initBytes.length < 2 ^ 32 ∧ paddedLength s.cfg c.fwBytes.length < 2 ^ 32)
    (fun _ => Iff.rfl) (fun _ => rfl) (fun _ => rfl)

theorem beginStream_overlooksUnread (space : Space) (base len : U32) :
    overlooksUnread (beginStream space base len) :=
  overlooksUnread_ite (p := fun s => (loadStream space base len s).fragMax < 1) (fun _ => Iff.rfl) (fun _ => rfl)
    (fun _ => rfl)

theorem enterStep_overlooksUnread : overlooksUnread enterStep := fun s => by
  have hupc : (hideUnread s).upc = s.upc := rfl
  have hcmd : (hideUnread s).cmd = s.cmd := rfl
  unfold enterStep
  rw [hupc, hcmd]
  cases s.upc
  case m0 =>
    cases s.cmd with
    | none => rfl
    | some c => exact takeStart_overlooksUnread c s
  case m6 => exact beginStream_overlooksUnread .initMem 0 s.initLen (crcLoad 0 (setSeq .datStreaming s))
  case m10 =>
    exact overlooksUnread_ite (p := fun s => s.fwOff = s.fwPlen) (f := goTo .done .m14)
      (g := fun s => enterExchange (setChunkLen (chunkLengthOf s) s)) (fun _ => Iff.rfl) (fun _ => rfl)
      (fun s => enterExchange_overlooksUnread (setChunkLen (chunkLengthOf s) s)) s
  case m11 => exact beginStream_overlooksUnread .fwpad s.fwOff s.chunkLen (setSeq .binStreaming s)
  case m14 | mf => rfl
  all_goals exact enterExchange_overlooksUnread s

/-- The check reads the reported CRC, not the offset beside it. -/
theorem checkCrc_overlooksUnread (q : Seq) (u : Upc) : overlooksUnread (checkCrc q u) :=
  overlooksUnread_ite (p := fun s => s.rsp.crc.crc ≠ s.crcAcc) (fun _ => Iff.rfl) (fun _ => rfl) (fun _ => rfl)

/-- M9 reads the maximum size, not the offset and the CRC beside it. -/
theorem finishSelectData_overlooksUnread : overlooksUnread finishSelectData := fun s => by
  have hmax : (hideUnread s).rsp.sel.maxSize = s.rsp.sel.maxSize := rfl
  by_cases h : s.rsp.sel.maxSize = 0
  · rw [finishSelectData_zero h, finishSelectData_zero (hmax ▸ h)]
    rfl
  · rw [finishSelectData_some h, finishSelectData_some (hmax ▸ h), hmax]
    rfl

theorem finishStep_overlooksUnread : overlooksUnread finishStep := fun s => by
  have hupc : (hideUnread s).upc = s.upc := rfl
  unfold finishStep
  rw [hupc]
  cases s.upc
  case m1 =>
    exact overlooksUnread_ite (p := fun s => s.rsp.version ≠ s.cfg.supportedVersion) (fun _ => Iff.rfl)
      (fun _ => rfl) (fun _ => rfl) s
  case m7 => exact checkCrc_overlooksUnread .datCrcChecked .m8 s
  case m9 => exact finishSelectData_overlooksUnread s
  case m12 => exact checkCrc_overlooksUnread .binCrcChecked .m13 s
  all_goals rfl

theorem endStream_overlooksUnread : overlooksUnread endStream := fun s => by
  have hupc : (hideUnread s).upc = s.upc := rfl
  unfold endStream
  rw [hupc]
  cases s.upc <;> rfl

theorem fragDone_overlooksUnread (d : Bytes) : overlooksUnread (fragDone d) := fun s => by
  rw [fragDone_eq, fragDone_eq]
  rfl

/-- `overlooksUnread` for a meaning, which may also stop. -/
def outcomeOverlooksUnread (f : State → Host.Outcome State Fault Refusal) : Prop :=
  ∀ s, mapNext hideUnread (f (hideUnread s)) = mapNext hideUnread (f s)

theorem overlooksUnread.next {f : State → State} (h : overlooksUnread f) :
    outcomeOverlooksUnread fun s => .next (f s) := fun s => congrArg Host.Outcome.next (h s)

/-- A response row writes members of `rsp` and keeps the others, read or not, as they were. -/
theorem exec_overlooksUnread (i : Instr) : outcomeOverlooksUnread (exec i) := by
  cases i
  case getProtocolVersion | selectObject | createObject | setReceiptNotification | getMtu | getCrc | execute =>
    exact (sendStep_overlooksUnread (fun _ => rfl) _).next
  case writeChunk => exact (sendStep_overlooksUnread (fun _ => rfl) _).next
  case frameEscEnd => exact fun s => (appendRx_overlooksUnread s.cfg.endByte fun _ => rfl).next s
  case frameEscEsc => exact fun s => (appendRx_overlooksUnread s.cfg.escByte fun _ => rfl).next s
  case frameLiteral b => exact (appendRx_overlooksUnread b fun _ => rfl).next
  all_goals exact fun _ => rfl

theorem streamStep_overlooksUnread : outcomeOverlooksUnread streamStep := fun s => by
  by_cases h : s.strPtr.toNat < s.strLen.toNat
  · cases hd : memRead s s.strSpace (s.strBase.toNat + s.strPtr.toNat) (fragLengthOf s) with
    | some d =>
      rw [streamStep_fragment h hd, streamStep_fragment (s := hideUnread s) h hd]
      rfl
    | none =>
      rw [streamStep_outOfRange h hd, streamStep_outOfRange (s := hideUnread s) h hd]
      rfl
  · rw [streamStep_done h, streamStep_done (s := hideUnread s) h]
    exact endStream_overlooksUnread.next s

theorem recvStep_overlooksUnread : outcomeOverlooksUnread recvStep := fun s => by
  have hrx : (hideUnread s).rx = s.rx := rfl
  have hsym (b : Byte) : symbolOfByte (hideUnread s).cfg (hideUnread s).rxEsc b =
    symbolOfByte s.cfg s.rxEsc b := rfl
  unfold recvStep
  simp only [hrx, hsym]
  rcases s.rx with _ | ⟨b | _ | _ | _, rest⟩
  case cons.byte =>
    dsimp only
    cases symbolOfByte s.cfg s.rxEsc b with
    | none => rfl
    | some i => exact exec_overlooksUnread i (popRx rest s)
  all_goals rfl

theorem parseStep_overlooksUnread : outcomeOverlooksUnread parseStep := fun s => by
  have hdec : decodeResponse (hideUnread s).cfg (hideUnread s).outOp (hideUnread s).outShape
    (hideUnread s).rxBuf = decodeResponse s.cfg s.outOp s.outShape s.rxBuf := rfl
  unfold parseStep
  rw [hdec]
  cases decodeResponse s.cfg s.outOp s.outShape s.rxBuf with
  | error k => rfl
  | ok i => exact exec_overlooksUnread i s

theorem runPhase_overlooksUnread : outcomeOverlooksUnread runPhase := fun s => by
  have hphase : (hideUnread s).phase = s.phase := rfl
  unfold runPhase
  rw [hphase]
  cases s.phase
  case enter => exact enterStep_overlooksUnread.next s
  case send r => exact exec_overlooksUnread r.toInstr s
  case write r => exact exec_overlooksUnread r.toInstr s
  case flush r => exact exec_overlooksUnread r.toInstr s
  case encoded => rfl
  case sent d => exact (fragDone_overlooksUnread d).next s
  case stream => exact streamStep_overlooksUnread s
  case recv => exact recvStep_overlooksUnread s
  case parse => exact parseStep_overlooksUnread s
  case finish => exact finishStep_overlooksUnread.next s

theorem step_overlooksUnread : outcomeOverlooksUnread step := fun s => by
  have hhalted : halted (hideUnread s) = halted s := rfl
  unfold step
  rw [hhalted]
  cases halted s
  · exact runPhase_overlooksUnread s
  · rfl

/-- Settles O60: two states that differ in the unread members only have the same state behind them once those are
hidden, and each steps as it does. -/
theorem unreadMembersHaveNoInfluence : Obligations.UnreadMembersHaveNoInfluence := fun s s' h =>
  calc mapNext hideUnread (step s)
    _ = mapNext hideUnread (step (hideUnread s)) := (step_overlooksUnread s).symm
    _ = mapNext hideUnread (step (hideUnread s')) := by rw [h]
    _ = mapNext hideUnread (step s') := step_overlooksUnread s'

end Sys2Proof.Machine
end

section
/-! PROOFS. The abort: what it writes, the code that a host reads, and what a failing step leaves as it was. -/

namespace Sys2Proof.Machine

/-! ## The abort and its code (R301, R312) -/

theorem halted_raise (k : ErrKind) (s : State) : halted (raise k s) = true := rfl

/-- Settles O29: the writes are the definition of the abort, and MF is a halt state (R266). -/
theorem abortWritesFourRegisters : Obligations.AbortWritesFourRegisters := fun k s =>
  ⟨rfl, step_of_halted (halted_raise k s)⟩

theorem errCode_of_errValid_eq_false {s : State} (h : s.errValid = false) : errCode s = 0 := by
  simp [errCode, h]

/-- After an abort the host reads the code of the kind raised. -/
@[simp] theorem errCode_raise (k : ErrKind) (s : State) : errCode (raise k s) = k.code := rfl

/-- Settles O30: the code after an abort is that of its kind, which is R301's table. -/
theorem errorCodesFollowTable : Obligations.ErrorCodesFollowTable := by
  intro s
  refine ⟨errCode_of_errValid_eq_false, ?_⟩
  simp only [errCode_raise, ErrKind.code, implies_true, and_self]

/-! ## What a failing step leaves as it was (R312, R313) -/

/-- What a failing step from `s` has left as it was in the state `u` that it raises in: it has written none of these
registers but for the 0 that M9 rejects (R261) and the 0 that M6 loads before STREAM (R258). -/
structure KeptUntilRaise (s u : State) : Prop where
  upc : u.upc = s.upc := by rfl
  mtu : u.mtu = s.mtu := by rfl
  fwOff : u.fwOff = s.fwOff := by rfl
  rxBuf : u.rxBuf = s.rxBuf := by rfl
  rxEsc : u.rxEsc = s.rxEsc := by rfl
  awaiting : u.awaiting = s.awaiting := by rfl
  outOp : u.outOp = s.outOp := by rfl
  outShape : u.outShape = s.outShape := by rfl
  rsp : u.rsp = s.rsp := by rfl
  txBuf : u.txBuf = s.txBuf := by rfl
  maxSize : u.maxSize = s.maxSize ∨ (s.upc = .m9 ∧ s.phase = .finish ∧ u.maxSize = 0) := by exact .inl rfl
  crcAcc : u.crcAcc = s.crcAcc ∨ (s.upc = .m6 ∧ s.phase = .enter ∧ u.crcAcc = 0) := by exact .inl rfl

/-- A way to MF is an abort, raised before any other register has been written than those of `KeptUntilRaise`. -/
theorem StepTo.exists_raise {s t : State} (h : StepTo s t) (hs : s.upc ≠ .mf) (ht : t.upc = .mf) :
    ∃ k u, t = raise k u ∧ KeptUntilRaise s u := by
  cases h
  case openDatSmallMtu hp hu _ => exact ⟨_, _, rfl, { crcAcc := .inr ⟨hu, hp, rfl⟩ }⟩
  case maxSizeZero hp hu hzero => exact ⟨_, _, rfl, { maxSize := .inr ⟨hu, hp, hzero⟩ }⟩
  case startTooLong | openBinSmallMtu | writeFailed | flushFailed | recvEof | recvTimeout | recvIoErr |
      recvOverflow | recvBadEscape | parseError | parseRejected | versionMismatch | crcMismatch =>
    exact ⟨_, _, rfl, {}⟩
  all_goals exact absurd ht (by simp [hs])

/-- Settles O31: the step raises in a state that still holds the registers, and the abort writes none of them. -/
theorem failingStepIsPrecise : Obligations.FailingStepIsPrecise := by
  intro s t hstep hs ht
  rcases step_next hstep with ⟨-, rfl⟩ | ⟨-, hst⟩
  · exact absurd ht hs
  obtain ⟨k, u, rfl, hkept⟩ := hst.exists_raise hs ht
  exact ⟨rfl, rfl, hkept.upc, hkept.mtu, hkept.fwOff, hkept.rxBuf, hkept.rxEsc, hkept.awaiting, hkept.outOp,
    hkept.outShape, hkept.rsp, hkept.txBuf, hkept.maxSize, hkept.crcAcc⟩

end Sys2Proof.Machine
end

section
/-! PROOFS. Reset: the registers of the environment's side that the creation of a new Session leaves as they were. -/

namespace Sys2Proof.Machine

/-! ## What reset does not touch (R351) -/

/-- Settles O2: a new Session copies the stream, its log and the ready line from the machine in use, and its reset
state is that of the same parameters. -/
theorem newSessionLeavesStreamAlone : Obligations.NewSessionLeavesStreamAlone := fun _ =>
  ⟨rfl, rfl, rfl, rfl, rfl⟩

end Sys2Proof.Machine
end
